-- ==== Sys2Proof/Word.lean ====
section
/-! DEFINITION. The data types of the block: bytes, lanes, bus words, the 25-lane matrix and the 136-byte buffers
(spec/00_scope.md R11, R13, R16), and the names of the command errors (spec/60_exceptions.md R101). -/

namespace Sys2Proof

/-- R11: a byte is `UInt8`. -/
abbrev Byte := BitVec 8

/-- R11: a lane is `UInt64`. -/
abbrev Lane := BitVec 64

/-- R11: a host bus word is `UInt32`, and so is a command word (R58). -/
abbrev Word := BitVec 32

/-- R43: a 12-bit byte address of the host register space, an offset from the platform's `BASE`. -/
abbrev Offset := BitVec 12

/-- R13, R22: the state matrix as its 25 lanes, `lane(i) = A[i mod 5][i div 5]` for `i = x + 5*y`. -/
abbrev Lanes := Vector Lane 25

/-- R24, R25: one rate's worth of bytes, the shape of BUF, OUT and of a snapshot of BUF. -/
abbrev Block := Vector Byte 136

/-- R101: the causes of a command error (code 0, NONE, is the absence of one). -/
inductive ErrCode where
  | illegalOpcode
  | reservedBits
  | badPhase
  | badRange
  deriving DecidableEq, Repr

end Sys2Proof
end

