-- ==== Sys2Proof/Config.lean ====
section
/-! DEFINITION. What the spec leaves open and the model takes as free values (constants without a body): the latency
draw LAT (spec/00_scope.md R8, spec/93_implementation_defined.md U1) and the round counter while a permuting command is
in flight (R39, U10). Nothing can be proved of the value of either. -/

namespace Sys2Proof

/-- R8, R98, U1: the draw LAT of a command accepted at model tick `n`, less one: how many steps pass between the
command's acceptance and the step that completes it.  Any natural number; LAT itself is this number plus one, so it is
positive and unbounded. -/
opaque Config.latency : Nat → Nat

/-- R21, R39, U10: the round counter `rnd` seen at model tick `n` while a PERMUTE, ABSORB or ABSORB_FINAL is in flight
and does not complete.  Any value 0..23: the datapath between acceptance and completion is free. -/
opaque Config.roundAt : Nat → Fin 24

end Sys2Proof
end

