-- ==== Sys2Proof/Syntax.lean ====
section
/-! DEFINITION. The commands, one constructor per row of spec/opcode_table.json (spec/30_encoding.md R60). An operand is
a natural number, as R59 reads the 8-bit fields; Sys2Proof/WellFormed.lean says which numbers an encoding can hold. -/

namespace Sys2Proof

/-- R60: the seven commands a host writes to CMD. -/
inductive Instr where
  /-- R96: do nothing. -/
  | nop
  /-- R97: open a fresh hash context. -/
  | init
  /-- R70: XOR the bytes of BUF from position OFFSET for COUNT bytes into the rate. -/
  | xorRate (offset count : Nat)
  /-- R81: apply Keccak-f[1600] to the state. -/
  | permute
  /-- R86: absorb one full, non-final 136-byte message block. -/
  | absorb
  /-- R87: pad the last LEN message bytes, absorb the final block, close absorption. -/
  | absorbFinal (len : Nat)
  /-- R89: copy the first COUNT rate bytes of the state into OUT. -/
  | squeeze (count : Nat)
  deriving DecidableEq, Repr

end Sys2Proof
end

