-- ==== Sys2Proof/Machine/State.lean ====
section
/-! DEFINITION. The state of the machine as plain data: the block's own state record (spec/10_state.md R40, with `rnd` of
R39), and the model's inputs and observations around it (the host's queued accesses, the reset input, what reads
returned, the latency still to run). Faults, refusals and the reset state. -/

namespace Sys2Proof.Machine

/-- R33: the sponge controller's phase. The encoding 3 is never held (U8), so there are three values. -/
inductive Phase where
  | idle
  | absorb
  | squeeze
  deriving DecidableEq, Repr

/-- R38: the command in flight: the accepted command word and the copy of BUF taken at its acceptance. -/
structure InFlight where
  cmd : Word
  snap : Block
  deriving DecidableEq, Repr

/-- R9, R15, R66: what the host does next at its one port. `addr` is the platform's byte address, BASE plus an offset
where the access is to this block (R43, R65); `size` is the number of bytes of the access (only 4 is supported, R45). -/
inductive HostStmt where
  /-- R15: `MemRead(addr, size)`. -/
  | read (addr : Nat) (size : Nat)
  /-- R15: `MemWrite(addr, size, data)`. -/
  | write (addr : Nat) (size : Nat) (data : Word)
  /-- R66: `WAIT`, poll STATUS until `BUSY = 0`. -/
  | wait
  /-- R56: wait for `irq`. -/
  | waitIrq
  deriving DecidableEq, Repr

/-- R40: the block's state record, then the model's own fields (`base` to `tick`): see INVENTORY.md. -/
structure State where
  /-- R22: the 25 lanes of the Keccak state. -/
  lanes : Lanes
  /-- R24: the 136-byte input buffer BUF. -/
  buf : Block
  /-- R25: the 136-byte output buffer OUT. -/
  out : Block
  /-- R33: STATUS.PHASE. -/
  phase : Phase
  /-- R32: STATUS.OUT_VALID. -/
  outValid : Bool
  /-- R34: STATUS.ERR. -/
  err : Bool
  /-- R34: STATUS.ERR_CODE. -/
  errCode : BitVec 4
  /-- R34: STATUS.ERR_OP. -/
  errOp : BitVec 4
  /-- R35: INT_EN.DONE_IE. -/
  doneIE : Bool
  /-- R35: INT_EN.ERR_IE. -/
  errIE : Bool
  /-- R36: INT_STAT.DONE_P. -/
  doneP : Bool
  /-- R36: INT_STAT.ERR_P. -/
  errP : Bool
  /-- R38: the command in flight, if there is one; BUSY is that there is one. -/
  inflight : Option InFlight
  /-- R39: the round counter; 0 unless a permuting command is in flight, and then a free value (U10). -/
  rnd : Fin 24
  /-- The platform's parameter BASE (R43, U2, D4): the byte address of offset 0x000. An argument of the model, fixed for
  a machine: no step changes it. -/
  base : Nat
  /-- The model's: steps still to pass before the command in flight completes (its draw LAT, R8, less one). -/
  latLeft : Nat
  /-- The model's input: the latency draws given to the model (U1: a parameter), each less one, the next command's first;
  where none is given, the draw is the free value `Config.latency`. -/
  latDraws : List Nat
  /-- The model's input: the host's accesses still to come, the next one first (R54). -/
  host : List HostStmt
  /-- The model's input: accesses of a second host agent at the same instance (R114: refused). -/
  secondHost : List HostStmt
  /-- The model's input: the reset line sampled once a step, the next sample first; no sample is no reset (R10). -/
  resetPin : List Bool
  /-- The model's observation: what the host's reads returned, oldest first (R18). -/
  reads : List Word
  /-- The model's: how many steps were taken; it indexes the free values of Sys2Proof/Config.lean. -/
  tick : Nat
  deriving DecidableEq, Repr

/-- Why a step has no next state. All but the last are the bus error responses of R45 and R47, which R46 makes a fault
of the host step (safe: a run that has one proves nothing of later steps). -/
inductive Fault where
  /-- R45: an access of another width than 32 bits. Raised by the bus (`memRead`, `memWrite`). Safe. -/
  | unsupportedSize
  /-- R45: an access at an offset that is no multiple of 4. Raised by the bus. Safe. -/
  | misaligned
  /-- R47: an access to an unmapped offset. Raised by the bus. Safe. -/
  | unmapped
  /-- R47: a write to ID, PARAM, STATUS or an OUT word. Raised by the bus. Safe. -/
  | writeReadOnly
  /-- R47: a read of CMD. Raised by the bus. Safe. -/
  | readWriteOnly
  /-- A completion step while `inflight` holds a word that is no command. No run reaches it (acceptance puts only
  commands in flight, R95): the invariant of Sys2Proof/Safety.lean rules it out. Raised by `complete`. Safe. -/
  | noCommandInFlight
  deriving DecidableEq, Repr

/-- Why the model gives a step no meaning. -/
inductive Refusal where
  /-- An instruction without a meaning yet, by its mnemonic. Raised by no arm of this model. Safe. -/
  | notModelled (mnemonic : String)
  /-- R17(d), R114, D37: two host agents drive one instance, to which the spec gives no meaning. Raised by `step`. Safe. -/
  | twoHosts
  /-- R43: the host's next access is at an address outside BASE .. BASE + 0xFFF, so it is no access of this block, and
  the spec does not say what stands there. Raised by `hostStep`. Safe. -/
  | outsideBlock
  deriving DecidableEq, Repr

/-- What one step, or one meaning, answers. -/
abbrev Result := Host.Outcome State Fault Refusal

/-- R117: the state right after reset; no host access is queued, and nothing has been read. BASE is the platform's, not
reset's: the 0 here is one value of the parameter (DESIGN CHOICE, notes/assumptions/7.md). -/
def State.reset : State where
  lanes := Vector.replicate 25 0
  buf := Vector.replicate 136 0
  out := Vector.replicate 136 0
  phase := .idle
  outValid := false
  err := false
  errCode := 0
  errOp := 0
  doneIE := false
  errIE := false
  doneP := false
  errP := false
  inflight := none
  rnd := 0
  base := 0
  latLeft := 0
  latDraws := []
  host := []
  secondHost := []
  resetPin := []
  reads := []
  tick := 0

end Sys2Proof.Machine
end

