-- ==== Sys2Proof/Machine/Flags.lean ====
section
/-! DEFINITION. The words the host sees: ID, PARAM, STATUS, INT_EN, INT_STAT, and the interrupt output
(spec/10_state.md R27 to R37; R26: a bit not listed reads 0 and is ignored on write). -/

namespace Sys2Proof.Machine

/-- R27: ID, the ASCII bytes "S", "H", "A", "3". -/
def idWord : Word := 0x53484133

/-- R28: PARAM: `RATE_BYTES` = 136, `DIGEST_BYTES` = 32 and `ROUNDS` = 24 below a reserved zero byte. -/
def paramWord : Word := 136 ||| (32 <<< 8) ||| (24 <<< 16)

/-- R101: the code of an error cause in STATUS.ERR_CODE. -/
def errCodeBits : ErrCode → BitVec 4
  | .illegalOpcode => 1
  | .reservedBits => 2
  | .badPhase => 3
  | .badRange => 4

/-- R33: the code of a phase in STATUS.PHASE. -/
def phaseBits : Phase → BitVec 2
  | .idle => 0
  | .absorb => 1
  | .squeeze => 2

/-- R31: BUSY is 1 exactly while a command is in flight. -/
def busy (s : State) : Bool := s.inflight.isSome

/-- A flag as a word: bit 0 is the flag. -/
def flagWord (b : Bool) : Word := (BitVec.ofBool b).setWidth 32

/-- R30: the STATUS word, `BUSY | PHASE<<1 | OUT_VALID<<3 | ERR<<4 | ERR_CODE<<8 | ERR_OP<<12`. -/
def statusWord (s : State) : Word :=
  flagWord (busy s) ||| ((phaseBits s.phase).setWidth 32 <<< 1) ||| (flagWord s.outValid <<< 3) |||
    (flagWord s.err <<< 4) ||| (s.errCode.setWidth 32 <<< 8) ||| (s.errOp.setWidth 32 <<< 12)

/-- R35: the INT_EN word. -/
def intEnWord (s : State) : Word := flagWord s.doneIE ||| (flagWord s.errIE <<< 1)

/-- R36: the INT_STAT word. -/
def intStatWord (s : State) : Word := flagWord s.doneP ||| (flagWord s.errP <<< 1)

/-- R37: the level interrupt output. -/
def irq (s : State) : Bool := (s.doneP && s.doneIE) || (s.errP && s.errIE)

/-- R35: a host write of `w` to INT_EN. -/
def writeIntEn (w : Word) (s : State) : State :=
  { s with doneIE := w.getLsbD 0, errIE := w.getLsbD 1 }

/-- R36: a host write of `w` to INT_STAT: writing 1 clears the bit. -/
def clearIntStat (w : Word) (s : State) : State :=
  { s with doneP := s.doneP && !w.getLsbD 0, errP := s.errP && !w.getLsbD 1 }

end Sys2Proof.Machine
end

