-- ==== Sys2Proof/WellFormed.lean ====
section
/-! DEFINITION. Which commands the 32-bit format can spell: each operand fits its 8-bit field (spec/30_encoding.md R58,
R59; R65: an assembler refuses a command operand outside 0..255). The legal ranges of R59 are no part of this: a word
with an operand outside them is a command, and acceptance refuses it with BAD_RANGE. -/

namespace Sys2Proof

/-- R59: an operand is an unsigned 8-bit field, zero-extended. -/
def fitsField (n : Nat) : Bool := decide (n < 256)

/-- R58, R59, R65: every operand of the command fits its field. -/
def Instr.wellFormed : Instr → Bool
  | .nop => true
  | .init => true
  | .xorRate offset count => fitsField offset && fitsField count
  | .permute => true
  | .absorb => true
  | .absorbFinal len => fitsField len
  | .squeeze count => fitsField count

end Sys2Proof
end

