-- ==== Sys2Proof/Decode.lean ====
section
/-! DEFINITION. The command format, the decoder and the encoder (spec/30_encoding.md R58 to R62, R67). -/

namespace Sys2Proof

/-! ## The fields of a command word (R58) -/

/-- R58: `OP`, bits [3:0]. -/
def opField (w : Word) : BitVec 4 := w.extractLsb' 0 4

/-- R58: `RSV0`, bits [7:4]. -/
def rsv0Field (w : Word) : BitVec 4 := w.extractLsb' 4 4

/-- R58: `FA`, bits [15:8]. -/
def faField (w : Word) : BitVec 8 := w.extractLsb' 8 8

/-- R58: `FB`, bits [23:16]. -/
def fbField (w : Word) : BitVec 8 := w.extractLsb' 16 8

/-- R58: `RSV1`, bits [31:24]. -/
def rsv1Field (w : Word) : BitVec 8 := w.extractLsb' 24 8

/-! ## The decoder (R67) -/

/-- R60, R67: does the opcode use `FA` (OFFSET or LEN)? -/
def usesFa (op : BitVec 4) : Bool := op == 0x2#4 || op == 0x5#4

/-- R60, R67: does the opcode use `FB` (COUNT)? -/
def usesFb (op : BitVec 4) : Bool := op == 0x2#4 || op == 0x6#4

/-- R60: the command of an opcode with these operand fields; no command for a reserved opcode 0x7..0xF. -/
def commandOf (op : BitVec 4) (fa fb : BitVec 8) : Option Instr :=
  if op = 0x0#4 then some .nop
  else if op = 0x1#4 then some .init
  else if op = 0x2#4 then some (.xorRate fa.toNat fb.toNat)
  else if op = 0x3#4 then some .permute
  else if op = 0x4#4 then some .absorb
  else if op = 0x5#4 then some (.absorbFinal fa.toNat)
  else if op = 0x6#4 then some (.squeeze fb.toNat)
  else none

/-- R67: the decoder, total on every 32-bit word: the command, or the error that validation records.  The opcode is
looked at first (R61), then the reserved and unused fields (R62). -/
def decode (w : Word) : Except ErrCode Instr :=
  match commandOf (opField w) (faField w) (fbField w) with
  | none => .error .illegalOpcode
  | some i =>
    if rsv0Field w ≠ 0 ∨ rsv1Field w ≠ 0 then .error .reservedBits
    else if usesFa (opField w) = false ∧ faField w ≠ 0 then .error .reservedBits
    else if usesFb (opField w) = false ∧ fbField w ≠ 0 then .error .reservedBits
    else .ok i

/-! ## The encoder -/

/-- R60: the opcode of a command. -/
def Instr.opcode : Instr → BitVec 4
  | .nop => 0x0
  | .init => 0x1
  | .xorRate _ _ => 0x2
  | .permute => 0x3
  | .absorb => 0x4
  | .absorbFinal _ => 0x5
  | .squeeze _ => 0x6

/-- R58, R60: what a command puts into `FA`. -/
def Instr.fa : Instr → Nat
  | .xorRate offset _ => offset
  | .absorbFinal len => len
  | .nop => 0
  | .init => 0
  | .permute => 0
  | .absorb => 0
  | .squeeze _ => 0

/-- R58, R60: what a command puts into `FB`. -/
def Instr.fb : Instr → Nat
  | .xorRate _ count => count
  | .squeeze count => count
  | .nop => 0
  | .init => 0
  | .permute => 0
  | .absorb => 0
  | .absorbFinal _ => 0

/-- R58: `OP`, `FA` and `FB` at their bits of the word, the reserved fields 0. -/
def packFields (fb fa : BitVec 8) (op : BitVec 4) : Word :=
  op.setWidth 32 ||| (fa.setWidth 32 <<< 8) ||| (fb.setWidth 32 <<< 16)

/-- R58, R60: the command word of a well-formed command. -/
def encode (i : Instr) : Word := packFields (BitVec.ofNat 8 i.fb) (BitVec.ofNat 8 i.fa) i.opcode

/-! ## The opcode map's match and mask (R60) -/

/-- R60: the `match` of a command's row. -/
def Instr.rowMatch : Instr → Word
  | .nop => 0x00000000
  | .init => 0x00000001
  | .xorRate _ _ => 0x00000002
  | .permute => 0x00000003
  | .absorb => 0x00000004
  | .absorbFinal _ => 0x00000005
  | .squeeze _ => 0x00000006

/-- R60: the `mask` of a command's row. -/
def Instr.rowMask : Instr → Word
  | .nop => 0xFFFFFFFF
  | .init => 0xFFFFFFFF
  | .xorRate _ _ => 0xFF0000FF
  | .permute => 0xFFFFFFFF
  | .absorb => 0xFFFFFFFF
  | .absorbFinal _ => 0xFFFF00FF
  | .squeeze _ => 0xFF00FFFF

/-! ## The host's view of the decoder -/

/-- The instruction the decoder reads from an opcode-table row's `nbits` bits `w`; a command is one 32-bit word (R64), so
bits above `nbits` are 0 and a row of more than 32 bits does not exist. -/
def decodeTableWord (nbits w : Nat) : Option Instr :=
  if nbits ≤ 32 then
    match decode (BitVec.ofNat 32 (w % 2 ^ nbits)) with
    | .ok i => some i
    | .error _ => none
  else none

end Sys2Proof
end

