-- ==== Sys2Proof/Machine/Operands.lean ====
section
/-! DEFINITION. What acceptance checks of a command's operands and phase (spec/30_encoding.md R59, spec/44_sponge_ctrl.md
R94, R95), and the byte view of the state matrix through which the data operands act (spec/00_scope.md R13, R14). -/

namespace Sys2Proof.Machine

/-! ## Operand ranges and phases -/

/-- R59, R95: the legal ranges, computed on natural numbers and so without wrap-around. -/
def inRange : Instr → Bool
  | .nop => true
  | .init => true
  | .xorRate offset count => decide (offset + count ≤ 136)
  | .permute => true
  | .absorb => true
  | .absorbFinal len => decide (len ≤ 135)
  | .squeeze count => decide (1 ≤ count ∧ count ≤ 136)

/-- R94: the phase legality table. -/
def legal (p : Phase) : Instr → Bool
  | .nop => true
  | .init => true
  | .xorRate _ _ => p == .absorb
  | .permute => p != .idle
  | .absorb => p == .absorb
  | .absorbFinal _ => p == .absorb
  | .squeeze _ => p == .squeeze

/-! ## Lanes and bytes of the state matrix -/

/-- R13: `A[x][y]`, the lane at linear index `x + 5*y`. -/
def laneAt (A : Lanes) (x y : Fin 5) : Lane := A[x.val + 5 * y.val]'(by omega)

/-- R13: the matrix whose lane at column `x`, row `y` is `f x y`. -/
def ofLanes (f : Fin 5 → Fin 5 → Lane) : Lanes :=
  Vector.ofFn fun i : Fin 25 => f ⟨i.val % 5, by omega⟩ ⟨i.val / 5, by omega⟩

/-- R13: `ZERO`, the state with all 25 lanes 0. -/
def zeroLanes : Lanes := Vector.replicate 25 0

/-- A block of 136 zero bytes. -/
def zeroBlock : Block := Vector.replicate 136 0

/-- R14: byte `p` of the state, the little-endian byte `p mod 8` of lane `p div 8`. -/
def stateByte (A : Lanes) (p : Fin 200) : Byte :=
  (A[p.val / 8]'(by omega) >>> (8 * (p.val % 8))).setWidth 8

/-- R14: XOR the byte `v` into byte `p` of the state. -/
def xorStateByte (A : Lanes) (p : Fin 200) (v : Byte) : Lanes :=
  A.set (p.val / 8) (A[p.val / 8]'(by omega) ^^^ (v.setWidth 64 <<< (8 * (p.val % 8)))) (by omega)

/-- R14: a rate byte position, as a state byte position. -/
def ratePos (p : Fin 136) : Fin 200 := ⟨p.val, by omega⟩

/-- R68: `XorRate(A, data, off, cnt)`, the positions `off .. off+cnt-1` of the rate in increasing order. -/
@[irreducible] def xorRate (A : Lanes) (data : Block) (off cnt : Nat) : Lanes :=
  (List.finRange 136).foldl
    (fun B p => if off ≤ p.val ∧ p.val < off + cnt then xorStateByte B (ratePos p) data[p] else B) A

/-- R69: `ReadRate(A, cnt)`, the first `cnt` bytes of the rate (`cnt ≤ 136`). -/
@[irreducible] def readRate (A : Lanes) (cnt : Nat) : List Byte :=
  ((List.finRange 136).take cnt).map fun p => stateByte A (ratePos p)

end Sys2Proof.Machine
end

