-- ==== Sys2Proof/Machine/Ops.lean ====
section
/-! DEFINITION. The operations every command shares: recording an error, the error lock, acceptance of a decoded
command, completion bookkeeping (spec/44_sponge_ctrl.md R95, R98; spec/60_exceptions.md R102 to R104), and the passing
of one step. The block takes no exceptions in the processor sense: its one error action is `recordError`, and INIT is
the way back (R105, R108). -/

namespace Sys2Proof.Machine

/-! ## Errors -/

/-- R102: `RecordError(code, op)`: the first error's code and opcode are kept; ERR_P is set; OUT is cleared. -/
def recordError (e : ErrCode) (op : BitVec 4) (s : State) : State :=
  { s with
    err := true
    errCode := if s.err then s.errCode else errCodeBits e
    errOp := if s.err then s.errOp else op
    errP := true
    out := zeroBlock
    outValid := false }

/-- R103: while ERR = 1, a word whose opcode is neither 0x0 nor 0x1 is discarded. -/
def locked (s : State) (op : BitVec 4) : Bool := s.err && op != 0x0#4 && op != 0x1#4

/-! ## Acceptance -/

/-- R8, U1: the latency of the command accepted now, less one: the draw the model was given, or a free value. -/
def drawLatency (s : State) : Nat := s.latDraws.headD (Config.latency s.tick)

/-- R95, R38: put the command in flight with a snapshot of BUF; its latency is drawn (R8), and `rnd` is 0 (R39). -/
def start (i : Instr) (s : State) : State :=
  { s with
    inflight := some { cmd := encode i, snap := s.buf }
    latLeft := drawLatency s
    latDraws := s.latDraws.tail
    rnd := 0 }

/-- R95, R104: `Accept` of a word that decodes to `i`, with no command in flight: the lock, then the phase, then the
range, then NOP returns and every other command goes in flight. -/
def acceptCommand (i : Instr) (s : State) : State :=
  if locked s i.opcode then s
  else if legal s.phase i = false then recordError .badPhase i.opcode s
  else if inRange i = false then recordError .badRange i.opcode s
  else if i = .nop then s
  else start i s

/-! ## Completion -/

/-- R98: the bookkeeping of every completion: no command in flight, so BUSY = 0, and DONE_P set. -/
def finish (s : State) : State :=
  { s with inflight := none, doneP := true, rnd := 0, latLeft := 0 }

/-- The two steps of a command (R70, R81, R86, R87, R89, R97: "Pseudocode, in two steps"). With no command in flight it
is presented and accepted; with this command in flight it completes, `effect` applied to its snapshot and the state;
with another command in flight it is held (R55) and changes nothing. -/
def runCommand (i : Instr) (effect : Block → State → State) (s : State) : Result :=
  match s.inflight with
  | none => .next (acceptCommand i s)
  | some fl => if decode fl.cmd = .ok i then .next (finish (effect fl.snap s)) else .next s

/-- Replace the state matrix. -/
def setLanes (A : Lanes) (s : State) : State := { s with lanes := A }

/-! ## The passing of a step, and reset -/

/-- R39: is a PERMUTE, ABSORB or ABSORB_FINAL in flight? -/
def permuting (s : State) : Bool :=
  match s.inflight with
  | none => false
  | some fl => opField fl.cmd == 0x3#4 || opField fl.cmd == 0x4#4 || opField fl.cmd == 0x5#4

/-- What every step that is no reset does besides its access or completion: one latency step passes, one sample of the
reset line is used up, and `rnd` takes some value while a permuting command is in flight (U10). -/
def advance (s : State) : State :=
  { s with
    latLeft := s.latLeft - 1
    resetPin := s.resetPin.tail
    rnd := if permuting s then Config.roundAt s.tick else s.rnd
    tick := s.tick + 1 }

/-- R117, R118: reset sets every piece of the block's state, abandons the command in flight, and leaves the host's
accesses pending (a held CMD write among them) and BASE as the platform chose it (R43). -/
def applyReset (s : State) : State :=
  { State.reset with
    base := s.base
    latDraws := s.latDraws
    host := s.host
    secondHost := s.secondHost
    resetPin := s.resetPin.tail
    reads := s.reads
    tick := s.tick + 1 }

end Sys2Proof.Machine
end

