-- ==== Sys2Proof/Machine/Permutation.lean ====
section
/-! DEFINITION. keccak_f1600_permutation: the five sub-steps, the round, Keccak-f[1600] and the PERMUTE command
(spec/41_permutation.md R72 to R82). -/

namespace Sys2Proof.Machine

/-- R12: the circular left rotation of a lane by `n mod 64`. -/
def rotl64 (v : Lane) (n : Nat) : Lane :=
  if n % 64 = 0 then v else (v <<< (n % 64)) ||| (v >>> (64 - n % 64))

/-- R72: the column parity `C[x]`. -/
def columnParity (A : Lanes) (x : Fin 5) : Lane :=
  laneAt A x 0 ^^^ laneAt A x 1 ^^^ laneAt A x 2 ^^^ laneAt A x 3 ^^^ laneAt A x 4

/-- R72: `D[x] = C[(x+4) mod 5] ^ ROTL64(C[(x+1) mod 5], 1)` (arithmetic on `Fin 5` is modulo 5). -/
def thetaD (A : Lanes) (x : Fin 5) : Lane := columnParity A (x + 4) ^^^ rotl64 (columnParity A (x + 1)) 1

/-- R72: theta. -/
def theta (A : Lanes) : Lanes := ofLanes fun x y => laneAt A x y ^^^ thetaD A x

/-- R74: the offset table `ROT[x][y]`, at linear index `x + 5*y`. -/
def rotTable : Vector Nat 25 :=
  #v[0, 1, 62, 28, 27,
     36, 44, 6, 55, 20,
     3, 10, 43, 25, 39,
     41, 45, 15, 21, 8,
     18, 2, 61, 56, 14]

/-- R74: `ROT[x][y]`. -/
def rotOffset (x y : Fin 5) : Nat := rotTable[x.val + 5 * y.val]'(by omega)

/-- R74: rho and pi in closed form. `A'[y][(2x + 3y) mod 5] = ROTL64(A[x][y], ROT[x][y])`, read at its destination:
the lane that arrives at `(X, Y)` comes from `x = X + 3Y`, `y = X` (modulo 5). -/
def rhoPi (A : Lanes) : Lanes :=
  ofLanes fun X Y => rotl64 (laneAt A (X + 3 * Y) X) (rotOffset (X + 3 * Y) X)

/-- R73: the traversal's state: the coordinates of the lane in hand, that lane, and the matrix. -/
structure RhoPiWalk where
  x : Fin 5
  y : Fin 5
  cur : Lane
  lanes : Lanes

/-- R73: step `t` of the traversal. -/
def rhoPiWalkStep (w : RhoPiWalk) (t : Nat) : RhoPiWalk where
  x := w.y
  y := 2 * w.x + 3 * w.y
  cur := laneAt w.lanes w.y (2 * w.x + 3 * w.y)
  lanes := w.lanes.set (w.y.val + 5 * (2 * w.x + 3 * w.y).val)
    (rotl64 w.cur ((t + 1) * (t + 2) / 2 % 64)) (by omega)

/-- R73: rho and pi as the source gives them, the 24 steps of one cycle that starts at (1,0). -/
def rhoPiTraversal (A : Lanes) : Lanes :=
  ((List.range 24).foldl rhoPiWalkStep { x := 1, y := 0, cur := laneAt A 1 0, lanes := A }).lanes

/-- R75: chi, from the row as it was before the step. -/
def chi (A : Lanes) : Lanes :=
  ofLanes fun x y => laneAt A x y ^^^ (~~~laneAt A (x + 1) y &&& laneAt A (x + 2) y)

/-- R77: the table as the rule prints it, two columns side by side: row `r` holds `RC[r]` and `RC[r + 12]`. -/
def roundConstantRows : Vector (Lane × Lane) 12 :=
  #v[(0x0000000000000001, 0x000000008000808B),
     (0x0000000000008082, 0x800000000000008B),
     (0x800000000000808A, 0x8000000000008089),
     (0x8000000080008000, 0x8000000000008003),
     (0x000000000000808B, 0x8000000000008002),
     (0x0000000080000001, 0x8000000000000080),
     (0x8000000080008081, 0x000000000000800A),
     (0x8000000000008009, 0x800000008000000A),
     (0x000000000000008A, 0x8000000080008081),
     (0x0000000000000088, 0x8000000000008080),
     (0x0000000080008009, 0x0000000080000001),
     (0x000000008000000A, 0x8000000080008008)]

/-- R77: the round constants `RC[0..23]`: the table's left column for `ir` in 0..11, its right column after that. -/
def roundConstants : Vector Lane 24 := Vector.ofFn fun ir : Fin 24 =>
  if h : ir.val < 12 then roundConstantRows[ir.val].1 else (roundConstantRows[ir.val - 12]'(by omega)).2

/-- R76: iota with round index `ir`. -/
def iota (A : Lanes) (ir : Fin 24) : Lanes := A.set 0 (A[0] ^^^ roundConstants[ir])

/-- R78: one round. -/
def round (A : Lanes) (ir : Fin 24) : Lanes := iota (chi (rhoPi (theta A))) ir

/-- R79: `KeccakF(A)`, the rounds 0, 1, ..., 23 in increasing order. -/
@[irreducible] def keccakF (A : Lanes) : Lanes := (List.finRange 24).foldl round A

/-- R81: the effect of PERMUTE at completion. -/
def permuteEffect (s : State) : State := setLanes (keccakF s.lanes) s

/-- R81: PERMUTE. -/
def execPermute (s : State) : Result := runCommand .permute (fun _ t => permuteEffect t) s

end Sys2Proof.Machine
end

