-- ==== Sys2Proof/Machine/StateMatrixXor.lean ====
section
/-! DEFINITION. state_matrix_xor: the XOR_RATE command (spec/40_state_matrix_xor.md R70). Its two primitives, XorRate
and ReadRate (R68, R69), are in Sys2Proof/Machine/Operands.lean. -/

namespace Sys2Proof.Machine

/-- R70: the effect of XOR_RATE at completion, on the snapshot. -/
def xorRateEffect (offset count : Nat) (snap : Block) (s : State) : State :=
  setLanes (xorRate s.lanes snap offset count) s

/-- R70: XOR_RATE OFFSET, COUNT. -/
def execXorRate (offset count : Nat) (s : State) : Result :=
  runCommand (.xorRate offset count) (xorRateEffect offset count) s

end Sys2Proof.Machine
end

