-- ==== Sys2Proof/Machine/Absorb.lean ====
section
/-! DEFINITION. keccak_absorb: the padding of the final block and the commands ABSORB and ABSORB_FINAL
(spec/42_padding_absorb.md R83 to R88). -/

namespace Sys2Proof.Machine

/-- R84, R85: `Pad(data, LEN)` for `LEN` in 0..135. -/
@[irreducible] def pad (data : Block) (len : Nat) : Block :=
  Vector.ofFn fun p : Fin 136 =>
    if p.val < len then data[p]
    else if len = 135 then 0x86
    else if p.val = len then 0x06
    else if p.val = 135 then 0x80
    else 0x00

/-- R86, R87: XOR a whole block into the rate, then permute. -/
@[irreducible] def absorbBlock (A : Lanes) (data : Block) : Lanes := keccakF (xorRate A data 0 136)

/-- R86: the effect of ABSORB at completion. -/
def absorbEffect (snap : Block) (s : State) : State := setLanes (absorbBlock s.lanes snap) s

/-- R87: the effect of ABSORB_FINAL at completion: the padded block is absorbed and absorption is closed. -/
def absorbFinalEffect (len : Nat) (snap : Block) (s : State) : State :=
  { s with lanes := absorbBlock s.lanes (pad snap len), phase := .squeeze }

/-- R86: ABSORB. -/
def execAbsorb (s : State) : Result := runCommand .absorb absorbEffect s

/-- R87: ABSORB_FINAL LEN. -/
def execAbsorbFinal (len : Nat) (s : State) : Result :=
  runCommand (.absorbFinal len) (absorbFinalEffect len) s

end Sys2Proof.Machine
end

