-- ==== Sys2Proof/Machine/SpongeCtrl.lean ====
section
/-! DEFINITION. sha3_sponge_ctrl: the commands NOP and INIT (spec/44_sponge_ctrl.md R96, R97). -/

namespace Sys2Proof.Machine

/-- R96: NOP. Presented with no command in flight it is accepted and returns without side effects; there is no
completion step; while a command is in flight its write is held (R55) and changes nothing. -/
def execNop (s : State) : Result :=
  match s.inflight with
  | none => .next (acceptCommand .nop s)
  | some _ => .next s

/-- R97: the effect of INIT at completion. -/
def initEffect (s : State) : State :=
  { s with
    lanes := zeroLanes
    out := zeroBlock
    outValid := false
    phase := .absorb
    err := false
    errCode := 0
    errOp := 0 }

/-- R97: INIT. -/
def execInit (s : State) : Result := runCommand .init (fun _ t => initEffect t) s

end Sys2Proof.Machine
end

