-- ==== Sys2Proof/Machine/Squeeze.lean ====
section
/-! DEFINITION. keccak_squeeze: the SQUEEZE command (spec/43_squeeze.md R89). -/

namespace Sys2Proof.Machine

/-- R89: what SQUEEZE leaves in OUT: `OUT[p] = (p < COUNT) ? R[p] : 0` with `R = ReadRate(A, COUNT)`. -/
@[irreducible] def squeezeOut (A : Lanes) (count : Nat) : Block :=
  Vector.ofFn fun p : Fin 136 => (readRate A count).getD p.val 0x00

/-- R89: the effect of SQUEEZE at completion; the state matrix is unchanged. -/
def squeezeEffect (count : Nat) (s : State) : State :=
  { s with out := squeezeOut s.lanes count, outValid := true }

/-- R89: SQUEEZE COUNT; the snapshot is taken and not used. -/
def execSqueeze (count : Nat) (s : State) : Result :=
  runCommand (.squeeze count) (fun _ t => squeezeEffect count t) s

end Sys2Proof.Machine
end

