-- ==== Sys2Proof/Machine/Dispatch.lean ====
section
/-! DEFINITION. The next step of a command in a state: its acceptance when no command is in flight, its completion when
it is the one in flight. One arm per constructor. -/

namespace Sys2Proof.Machine

def exec (i : Instr) (s : State) : Host.Outcome State Fault Refusal :=
  match i with
  -- sha3_sponge_ctrl
  | .nop => Sys2Proof.Machine.execNop s
  | .init => Sys2Proof.Machine.execInit s
  -- state_matrix_xor
  | .xorRate offset count => Sys2Proof.Machine.execXorRate offset count s
  -- keccak_f1600_permutation
  | .permute => Sys2Proof.Machine.execPermute s
  -- keccak_absorb
  | .absorb => Sys2Proof.Machine.execAbsorb s
  | .absorbFinal len => Sys2Proof.Machine.execAbsorbFinal len s
  -- keccak_squeeze
  | .squeeze count => Sys2Proof.Machine.execSqueeze count s

end Sys2Proof.Machine
end

