-- ==== Sys2Proof/Machine/Bus.lean ====
section
/-! DEFINITION. The host port: BASE, the register map, reads and writes, the CMD hold, acceptance of a command word, the
core's completion and one step of the host (spec/20_memory.md R43 to R57, spec/44_sponge_ctrl.md R95, R98). -/

namespace Sys2Proof.Machine

/-- R43: the offset of a platform address, where the address lies in the 0x1000 bytes that begin at BASE. -/
def offsetOf (base addr : Nat) : Option Offset :=
  if base ≤ addr ∧ addr < base + 0x1000 then some (BitVec.ofNat 12 (addr - base)) else none

/-- R44: what is mapped at an offset. -/
inductive Target where
  | id
  | param
  | cmd
  | status
  | intEn
  | intStat
  | bufWord (j : Fin 34)
  | outWord (j : Fin 34)
  deriving DecidableEq, Repr

/-- R44: the register map; `none` is unmapped. -/
def targetOf (off : Offset) : Option Target :=
  let a := off.toNat
  if a % 4 ≠ 0 then none
  else if a = 0x000 then some .id
  else if a = 0x004 then some .param
  else if a = 0x008 then some .cmd
  else if a = 0x00C then some .status
  else if a = 0x010 then some .intEn
  else if a = 0x014 then some .intStat
  else if h : 0x100 ≤ a ∧ a < 0x188 then some (.bufWord ⟨(a - 0x100) / 4, by omega⟩)
  else if h : 0x200 ≤ a ∧ a < 0x288 then some (.outWord ⟨(a - 0x200) / 4, by omega⟩)
  else none

/-- R45, R47: the checks every access passes first: its size, its alignment, and that its offset is mapped. -/
def checkAccess (off : Offset) (size : Nat) : Except Fault Target :=
  if size ≠ 4 then .error .unsupportedSize
  else if off.toNat % 4 ≠ 0 then .error .misaligned
  else
    match targetOf off with
    | none => .error .unmapped
    | some t => .ok t

/-- R48, R49: word `j` of a byte buffer, `b[4j] | b[4j+1]<<8 | b[4j+2]<<16 | b[4j+3]<<24`. -/
def bufferWord (b : Block) (j : Fin 34) : Word :=
  b[4 * j.val].setWidth 32 ||| (b[4 * j.val + 1].setWidth 32 <<< 8) ||| (b[4 * j.val + 2].setWidth 32 <<< 16) |||
    (b[4 * j.val + 3].setWidth 32 <<< 24)

/-- R49: write the four bytes of `w` into word `j` of a byte buffer. -/
def setBufferWord (b : Block) (j : Fin 34) (w : Word) : Block :=
  (((b.set (4 * j.val) (w.extractLsb' 0 8)).set (4 * j.val + 1) (w.extractLsb' 8 8)).set
    (4 * j.val + 2) (w.extractLsb' 16 8)).set (4 * j.val + 3) (w.extractLsb' 24 8)

/-- R49: a host write of `w` to BUF word `j`. -/
def writeBufWord (j : Fin 34) (w : Word) (s : State) : State := { s with buf := setBufferWord s.buf j w }

/-- R15, R47, R50, R51: `MemRead(off, size)`: the word read, or the bus error. No read has a side effect (R52). -/
def memRead (s : State) (off : Offset) (size : Nat) : Except Fault Word :=
  match checkAccess off size with
  | .error f => .error f
  | .ok .id => .ok idWord
  | .ok .param => .ok paramWord
  | .ok .cmd => .error .readWriteOnly
  | .ok .status => .ok (statusWord s)
  | .ok .intEn => .ok (intEnWord s)
  | .ok .intStat => .ok (intStatWord s)
  | .ok (.bufWord j) => .ok (bufferWord s.buf j)
  | .ok (.outWord j) => .ok (bufferWord s.out j)

/-- R95, R104: `Accept(w)`, with no command in flight: the lock, then the decoder's errors, then the decoded command's
own acceptance. -/
def acceptWord (w : Word) (s : State) : Result :=
  if locked s (opField w) then .next s
  else
    match decode w with
    | .error e => .next (recordError e (opField w) s)
    | .ok i => exec i s

/-- R15, R49, R51: `MemWrite(off, size, w)`; a CMD write is performed with no command in flight (R55, `hostStep`). -/
def memWrite (off : Offset) (size : Nat) (w : Word) (s : State) : Result :=
  match checkAccess off size with
  | .error f => .fault f
  | .ok .id => .fault .writeReadOnly
  | .ok .param => .fault .writeReadOnly
  | .ok .cmd => acceptWord w s
  | .ok .status => .fault .writeReadOnly
  | .ok .intEn => .next (writeIntEn w s)
  | .ok .intStat => .next (clearIntStat w s)
  | .ok (.bufWord j) => .next (writeBufWord j w s)
  | .ok (.outWord _) => .fault .writeReadOnly

/-- R55: is this write a CMD write that is held, because a command is in flight? -/
def heldWrite (s : State) (off : Offset) (size : Nat) : Bool :=
  busy s && decide (checkAccess off size = .ok .cmd)

/-- R98: the core's step on the command in flight. -/
def complete (s : State) : Result :=
  match s.inflight with
  | none => .next s
  | some fl =>
    match decode fl.cmd with
    | .ok i => exec i s
    | .error _ => .fault .noCommandInFlight

/-- The host's next access is done. -/
def popHost (s : State) : State := { s with host := s.host.tail }

/-- R18: a read returned `v` to the host. -/
def logRead (v : Word) (s : State) : State := { s with reads := s.reads ++ [v] }

/-- R54: one step of the host: its next access, performed whole at its offset from BASE (R43), or nothing where it has
none, where the access is held (R55) or where it waits (R56, R66). -/
def hostStep (s : State) : Result :=
  match s.host with
  | [] => .next s
  | .read addr size :: _ =>
    match offsetOf s.base addr with
    | none => .refused .outsideBlock
    | some off =>
      match memRead s off size with
      | .error f => .fault f
      | .ok v => .next (logRead v (popHost s))
  | .write addr size w :: _ =>
    match offsetOf s.base addr with
    | none => .refused .outsideBlock
    | some off => if heldWrite s off size then .next s else memWrite off size w (popHost s)
  | .wait :: _ => if busy s then .next s else .next (popHost s)
  | .waitIrq :: _ => if irq s then .next (popHost s) else .next s

/-- R9, R98: is this step the core's completion: a command is in flight and its latency has run out? -/
def completionDue (s : State) : Bool := busy s && s.latLeft == 0

/-- R10: does the reset line ask for a reset at this step? -/
def resetDue (s : State) : Bool := s.resetPin.headD false

end Sys2Proof.Machine
end

