-- ==== Sys2Proof/Machine/Step.lean ====
section
/-! DEFINITION. One step of the machine (spec/00_scope.md R9, R10, R17), and how the host's next command word is placed
for it. -/

namespace Sys2Proof.Machine

/-- R9, R10, R17: one step. Two host agents at one instance are refused; a reset that is due is taken; the command in
flight completes when its latency has run out; otherwise the host makes its next access. -/
def step (s : State) : Host.Outcome State Fault Refusal :=
  if s.secondHost ≠ [] then .refused .twoHosts
  else if resetDue s then .next (applyReset s)
  else if completionDue s then complete (advance s)
  else hostStep (advance s)

/-- R21, R29: the block fetches nothing: a command runs because the host writes its word to CMD. The word is put at the
head of the host's accesses; nothing in flight holds the write, no reset is due and no second host interferes. -/
def State.withFetchWord (s : State) (nbits w : Nat) : State :=
  { s with
    host := .write (s.base + 0x008) 4 (BitVec.ofNat 32 (w % 2 ^ nbits)) :: s.host
    secondHost := []
    resetPin := false :: s.resetPin
    inflight := none
    rnd := 0
    latLeft := 0 }

end Sys2Proof.Machine
end

