-- ==== Sys2Proof/Machine/HostProgram.lean ====
section
/-! DEFINITION. What a host writes: the assembler's statements and pseudo-instructions and their expansion into host
accesses (spec/30_encoding.md R65, R66), and the source's hash function that `SHA3_256` computes (spec/44_sponge_ctrl.md
R99, spec/42_padding_absorb.md R83, R84, R88). -/

namespace Sys2Proof.Machine

/-! ## Statements and pseudo-instructions -/

/-- R65, R66: a statement of a host program. Offsets and values are the numbers as written. -/
inductive AsmStmt where
  /-- A command statement. -/
  | command (i : Instr)
  /-- `WR off, value`. -/
  | wr (off value : Nat)
  /-- `RD off`. -/
  | rd (off : Nat)
  /-- `WAIT`. -/
  | wait
  /-- `LOADBUF bytes`, at most 136. -/
  | loadBuf (bytes : List Byte)
  /-- `ABSORB_BLOCK bytes`, exactly 136. -/
  | absorbBlock (bytes : List Byte)
  /-- `FINAL bytes`, fewer than 136. -/
  | final (bytes : List Byte)
  /-- `DIGEST`. -/
  | digest
  /-- `SHA3_256 msg`. -/
  | sha3 (msg : List Byte)
  deriving DecidableEq, Repr

/-- R15, R65: the offset of CMD. -/
def cmdOffset : Nat := 0x008

/-- R65: one CMD write of the command's word, at BASE plus the offset of CMD. -/
def cmdWrite (base : Nat) (i : Instr) : HostStmt := .write (base + cmdOffset) 4 (encode i)

/-- R65: an assembler refuses a command operand outside 0..255. -/
def assembleCommand (i : Instr) : Option Word := if i.wellFormed then some (encode i) else none

/-- R65: an assembler warns for an operand outside the range R59 checks. -/
def assemblerWarns (i : Instr) : Bool := !inRange i

/-- R66: bytes `4j .. 4j+3` as one little-endian word, a byte past the end taken as 0. -/
def wordAt (bytes : List Byte) (j : Nat) : Word :=
  (bytes.getD (4 * j) 0).setWidth 32 ||| ((bytes.getD (4 * j + 1) 0).setWidth 32 <<< 8) |||
    ((bytes.getD (4 * j + 2) 0).setWidth 32 <<< 16) ||| ((bytes.getD (4 * j + 3) 0).setWidth 32 <<< 24)

/-- R66: `LOADBUF bytes`: the writes of words `0 .. ceil(n/4)-1`. -/
def loadBuf (base : Nat) (bytes : List Byte) : List HostStmt :=
  (List.range ((bytes.length + 3) / 4)).map fun j => .write (base + (0x100 + 4 * j)) 4 (wordAt bytes j)

/-- R66: `DIGEST`: `SQUEEZE 32; WAIT;` eight reads of OUT. -/
def digestStmts (base : Nat) : List HostStmt :=
  [cmdWrite base (.squeeze 32), .wait] ++
    (List.range 8).map fun j => .read (base + (0x200 + 4 * j)) 4

/-- R66: block `k` of a message, bytes `136k .. 136k+135`. -/
def messageBlock (msg : List Byte) (k : Nat) : List Byte := (msg.drop (136 * k)).take 136

/-- R66: the bytes after a message's last full block, fewer than 136. -/
def messageTail (msg : List Byte) : List Byte := msg.drop (136 * (msg.length / 136))

/-- R66: `SHA3_256 msg`: `INIT`, one `ABSORB_BLOCK` for each full block, `FINAL` of the rest, `DIGEST`. -/
def sha3Stmts (base : Nat) (msg : List Byte) : List HostStmt :=
  [cmdWrite base .init] ++
    (List.range (msg.length / 136)).flatMap (fun k => loadBuf base (messageBlock msg k) ++ [cmdWrite base .absorb]) ++
    loadBuf base (messageTail msg) ++ [cmdWrite base (.absorbFinal (messageTail msg).length)] ++ digestStmts base

/-- R65, R66: what a statement expands to on a platform that puts the block at BASE; none where the assembler refuses it:
an operand outside 0..255, a value that a 32-bit access has no bits for, or too many (too few) bytes for the
pseudo-instruction. -/
def expand (base : Nat) : AsmStmt → Option (List HostStmt)
  | .command i => (assembleCommand i).map fun w => [.write (base + cmdOffset) 4 w]
  | .wr off value =>
    if value < 2 ^ 32 then some [.write (base + off) 4 (BitVec.ofNat 32 value)] else none
  | .rd off => some [.read (base + off) 4]
  | .wait => some [.wait]
  | .loadBuf bytes => if bytes.length ≤ 136 then some (loadBuf base bytes) else none
  | .absorbBlock bytes => if bytes.length = 136 then some (loadBuf base bytes ++ [cmdWrite base .absorb]) else none
  | .final bytes =>
    if bytes.length < 136 then some (loadBuf base bytes ++ [cmdWrite base (.absorbFinal bytes.length)]) else none
  | .digest => some (digestStmts base)
  | .sha3 msg => some (sha3Stmts base msg)

/-- R65: a program's statements, expanded in order; none if one is refused. -/
def expandAll (base : Nat) : List AsmStmt → Option (List HostStmt)
  | [] => some []
  | a :: rest =>
    match expand base a, expandAll base rest with
    | some x, some y => some (x ++ y)
    | _, _ => none

/-- R9: the state in which the host is about to make these accesses after those it has queued. -/
def queueHost (l : List HostStmt) (s : State) : State := { s with host := s.host ++ l }

/-- R65, D4: a program queued on the platform of a state, whose BASE its accesses are relative to; none if the assembler
refuses a statement. -/
def queueProgram (program : List AsmStmt) (s : State) : Option State :=
  (expandAll s.base program).map fun l => queueHost l s

/-! ## The text of a statement (R65) -/

/-- The value of a digit in a base of at most 16. -/
def digitValue (base : Nat) (c : Char) : Option Nat :=
  let n := c.toNat
  let v := if 48 ≤ n ∧ n ≤ 57 then n - 48 else if 65 ≤ n ∧ n ≤ 70 then n - 55
    else if 97 ≤ n ∧ n ≤ 102 then n - 87 else 16
  if v < base then some v else none

/-- Digits after an accumulated value. -/
def digitsFrom (base : Nat) : Nat → List Char → Option Nat
  | acc, [] => some acc
  | acc, c :: cs =>
    match digitValue base c with
    | none => none
    | some d => digitsFrom base (base * acc + d) cs

/-- R65: a number is decimal, or hexadecimal with a `0x` prefix. -/
def readNumber : List Char → Option Nat
  | [] => none
  | '0' :: 'x' :: [] => none
  | '0' :: 'x' :: c :: cs => digitsFrom 16 0 (c :: cs)
  | c :: cs => digitsFrom 10 0 (c :: cs)

/-- R65: the text before a comment, which runs from `;` to the end of the line. -/
def stripComment (line : List Char) : List Char := line.takeWhile (· != ';')

/-- The words and commas of a line; `w` is the word being read, its last character first. -/
def tokensFrom (w : List Char) : List Char → List (List Char)
  | [] => if w = [] then [] else [w.reverse]
  | c :: cs =>
    let done := if w = [] then [] else [w.reverse]
    if c = ',' then done ++ [[',']] ++ tokensFrom [] cs
    else if c = ' ' ∨ c = '\t' then done ++ tokensFrom [] cs
    else tokensFrom (c :: w) cs

/-- R65: a command statement from its mnemonic and its operands. -/
def commandNamed (name : List Char) (args : List Nat) : Option Instr :=
  match args with
  | [] =>
    if name = ['N', 'O', 'P'] then some .nop
    else if name = ['I', 'N', 'I', 'T'] then some .init
    else if name = ['P', 'E', 'R', 'M', 'U', 'T', 'E'] then some .permute
    else if name = ['A', 'B', 'S', 'O', 'R', 'B'] then some .absorb
    else none
  | [n] =>
    if name = ['A', 'B', 'S', 'O', 'R', 'B', '_', 'F', 'I', 'N', 'A', 'L'] then some (.absorbFinal n)
    else if name = ['S', 'Q', 'U', 'E', 'E', 'Z', 'E'] then some (.squeeze n)
    else none
  | [m, n] => if name = ['X', 'O', 'R', '_', 'R', 'A', 'T', 'E'] then some (.xorRate m n) else none
  | _ => none

/-- R65: operands are numbers separated by commas. -/
def readOperands : List (List Char) → Option (List Nat)
  | [] => some []
  | [n] => (readNumber n).map fun v => [v]
  | n :: c :: m :: rest =>
    if c = [','] then
      match readNumber n, readOperands (m :: rest) with
      | some v, some vs => some (v :: vs)
      | _, _ => none
    else none
  | _ => none

/-- R65, R66: the statement of a mnemonic and its operands. -/
def stmtNamed (name : List Char) (args : List Nat) : Option AsmStmt :=
  if name = ['W', 'R'] then
    match args with
    | [off, value] => some (.wr off value)
    | _ => none
  else if name = ['R', 'D'] then
    match args with
    | [off] => some (.rd off)
    | _ => none
  else if name = ['W', 'A', 'I', 'T'] then
    match args with
    | [] => some .wait
    | _ => none
  else if name = ['D', 'I', 'G', 'E', 'S', 'T'] then
    match args with
    | [] => some .digest
    | _ => none
  else (commandNamed name args).map .command

/-- R65, R66: the operands of `RD off -> value`, the form that states or names the read's result (`RD 0x00C -> s`): the
offset. -/
def readResultForm : List (List Char) → Option Nat
  | [off, ['-', '>'], _] => readNumber off
  | _ => none

/-- R66: the statement after `CMD`: a command statement, or the command word itself written as a number.
DEDUCED (notes/assumptions/13.md): R65 and R66 list only the first, and program P4 of spec/95_test_vectors.md, row 11,
writes `CMD 0x00000100` for `WR 0x008, 0x00000100`. -/
def readCmdForm (name : List Char) (rest : List (List Char)) : Option AsmStmt :=
  match rest, readNumber name with
  | [], some word => some (.wr cmdOffset word)
  | _, _ => (readOperands rest).bind fun args => (commandNamed name args).map .command

/-- R65, R66: one line of assembler text: no statement, or one; none overall where it is no line of the syntax. The
explicit form `CMD stmt` is the command statement it names, and `CMD word` writes the word (`readCmdForm`, log 13);
`RD off -> value` is the read `RD off`. -/
def readLine (line : List Char) : Option (List AsmStmt) :=
  match tokensFrom [] (stripComment line) with
  | [] => some []
  | name :: rest =>
    if name = ['C', 'M', 'D'] then
      match rest with
      | [] => none
      | name' :: rest' => (readCmdForm name' rest').map fun a => [a]
    else if name = ['R', 'D'] ∧ rest.contains ['-', '>'] then
      (readResultForm rest).map fun off => [.rd off]
    else
      match readOperands rest with
      | none => none
      | some args => (stmtNamed name args).map fun a => [a]

/-! ## The source's hash function -/

/-- R83, R84: the padding bytes of a message of `len` bytes: `136 - (len mod 136)` of them. -/
def paddingOf (len : Nat) : List Byte :=
  if len % 136 = 135 then [0x86] else [0x06] ++ List.replicate (134 - len % 136) 0x00 ++ [0x80]

/-- R83, R88: the source's padded message `pad(M)`. -/
def paddedMessage (msg : List Byte) : List Byte := msg ++ paddingOf msg.length

/-- A block from a list of bytes, a byte past the end taken as 0. -/
def blockOfList (l : List Byte) : Block := Vector.ofFn fun p : Fin 136 => l.getD p.val 0

/-- R88: absorb `n` blocks of a byte string in order. -/
def absorbBlocks (A : Lanes) (data : List Byte) (n : Nat) : Lanes :=
  (List.range n).foldl (fun B k => absorbBlock B (blockOfList (messageBlock data k))) A

/-- R88: "the post-absorption value" of a message: its padded message absorbed block by block from ZERO. -/
def absorbMessage (msg : List Byte) : Lanes :=
  absorbBlocks zeroLanes (paddedMessage msg) ((paddedMessage msg).length / 136)

/-- R99: the source's `hash(M)`, 32 bytes. -/
def sha3Hash (msg : List Byte) : List Byte := readRate (absorbMessage msg) 32

end Sys2Proof.Machine
end

