-- ==== Sys2Proof/Safety.lean ====
section
/-! DEFINITION. What claims are stated in: the invariant of the machine's state, the end of a run, when a digest may be
trusted, and the byte view of the two buffers (spec/00_scope.md R17 to R20). -/

namespace Sys2Proof.Machine

/-- What holds of every state a run reaches: the error fields agree with ERR (R34, R101), the command in flight was
accepted (R95), OUT_VALID and OUT agree with the phase and the errors (R25, R32), a closed context is ZERO (R93, R97),
and the counters are idle when nothing runs (R39). -/
structure StateInv (s : State) : Prop where
  /-- R34: ERR_CODE and ERR_OP are 0 when ERR = 0. -/
  no_error_no_code : s.err = false → s.errCode = 0 ∧ s.errOp = 0
  /-- R101: a recorded code is 1..4. -/
  error_code_named : s.err = true → s.errCode = 1 ∨ s.errCode = 2 ∨ s.errCode = 3 ∨ s.errCode = 4
  /-- R102, R103: while ERR = 1, OUT_VALID is 0. -/
  error_no_output : s.err = true → s.outValid = false
  /-- R25: OUT is all zero while OUT_VALID = 0. -/
  invalid_out_zero : s.outValid = false → s.out = zeroBlock
  /-- R32, R33: OUT_VALID is 1 only in phase SQUEEZE. -/
  output_in_squeeze : s.outValid = true → s.phase = .squeeze
  /-- R93: no lane has been written while no context is open. -/
  idle_state_zero : s.phase = .idle → s.lanes = zeroLanes
  /-- R95: the word in flight is a command other than NOP, legal in the phase, in range, and INIT while ERR = 1. -/
  inflight_accepted : ∀ fl, s.inflight = some fl →
    ∃ i, decode fl.cmd = .ok i ∧ i ≠ .nop ∧ legal s.phase i = true ∧ inRange i = true ∧ (s.err = true → i = .init)
  /-- R39: `rnd` is 0 unless a permuting command is in flight. -/
  rnd_idle : permuting s = false → s.rnd = 0
  /-- R31: no latency runs while no command is in flight. -/
  latency_idle : s.inflight = none → s.latLeft = 0

/-- R18: a host program's run has ended. -/
def runEnded (s : State) : Prop := s.host = [] ∧ s.inflight = none

/-- R19, R20, R122: a digest read now may be trusted. -/
def outTrusted (s : State) : Prop := s.err = false ∧ s.outValid = true ∧ s.inflight = none

/-- R49, R50: the byte of a buffer at a byte address of the register map: BUF at 0x100..0x187, OUT at 0x200..0x287. -/
def byteAt (s : State) (a : Nat) : Option Byte :=
  if 0x100 ≤ a ∧ a < 0x188 then s.buf[a - 0x100]?
  else if 0x200 ≤ a ∧ a < 0x288 then s.out[a - 0x200]?
  else none

/-- R10, R114: no second host and no reset at this step. -/
def undisturbed (s : State) : Prop := s.secondHost = [] ∧ resetDue s = false

/-- R9: this step is the host's: no second host, no reset, and the command in flight, if any, does not complete. -/
def hostTurn (s : State) : Prop := undisturbed s ∧ completionDue s = false

/-- R44: the offsets a 32-bit read may address. -/
def readable (off size : Nat) : Prop :=
  size = 4 ∧ off % 4 = 0 ∧
    (off ∈ [0x000, 0x004, 0x00C, 0x010, 0x014] ∨ (0x100 ≤ off ∧ off ≤ 0x184) ∨ (0x200 ≤ off ∧ off ≤ 0x284))

/-- R44: the offsets a 32-bit write may address. -/
def writable (off size : Nat) : Prop :=
  size = 4 ∧ off % 4 = 0 ∧ (off ∈ [0x008, 0x010, 0x014] ∨ (0x100 ≤ off ∧ off ≤ 0x184))

/-- R60: the seven rows of the opcode map as (match, mask). -/
def opcodeRows : List (Word × Word) :=
  [(0x00000000, 0xFFFFFFFF), (0x00000001, 0xFFFFFFFF), (0x00000002, 0xFF0000FF), (0x00000003, 0xFFFFFFFF),
   (0x00000004, 0xFFFFFFFF), (0x00000005, 0xFFFF00FF), (0x00000006, 0xFF00FFFF)]

/-- R60: does the word match a row? -/
def matchesRow (w : Word) (row : Word × Word) : Bool := w &&& row.2 == row.1

/-- R62: does the word match no row? -/
def matchesNoRow (w : Word) : Bool := opcodeRows.all fun row => !matchesRow w row

/-- R23, R92: two states that agree in everything but the capacity lanes. -/
def agreeButCapacity (s t : State) : Prop :=
  t = { s with lanes := t.lanes } ∧ ∀ (i : Nat) (_ : i < 17), t.lanes[i] = s.lanes[i]

/-! ## Command sequences (R88, R99) -/

/-- One step after another, stopping at the first fault or refusal. -/
def andThen (r : Result) (f : State → Result) : Result :=
  match r with
  | .next s => f s
  | .fault e => .fault e
  | .refused e => .refused e

/-- A command's two steps one after the other: its acceptance, then its completion. -/
def runToCompletion (i : Instr) (s : State) : Result := andThen (exec i s) (exec i)

/-- R66: the host has loaded BUF with a block. -/
def loadBlock (b : Block) (s : State) : State := { s with buf := b }

/-- R88: the ABSORBs of a message's first `n` blocks, BUF loaded with each. -/
def absorbCommands (msg : List Byte) (n : Nat) (s : State) : Result :=
  (List.range n).foldl
    (fun r k => andThen r fun t => runToCompletion .absorb (loadBlock (blockOfList (messageBlock msg k)) t)) (.next s)

/-- R99: the commands of `SHA3_256 msg`: INIT, an ABSORB for each full block, ABSORB_FINAL of the rest, SQUEEZE 32. -/
def hashCommands (msg : List Byte) (s : State) : Result :=
  andThen (runToCompletion .init s) fun s1 =>
  andThen (absorbCommands msg (msg.length / 136) s1) fun s2 =>
  andThen (runToCompletion (.absorbFinal (messageTail msg).length) (loadBlock (blockOfList (messageTail msg)) s2)) fun s3 =>
  runToCompletion (.squeeze 32) s3

end Sys2Proof.Machine
end

