-- ==== Sys2Proof/Certificates/Slice0/Obligations.lean ====
section
/-! DEFINITION. The statements for the provers. Each docstring names the rules of spec/ it rests on. -/

open Sys2Proof Sys2Proof.Machine

/-! ## Encoding -/

/-- R58, R59, R67: decoding the encoding of a well-formed command gives the command back, with every operand. -/
def Obligations.DecodeOfEncodeIsTheCommand : Prop :=
  ∀ i : Instr, i.wellFormed = true → decode (encode i) = .ok i

/-- R58, R60, R67: a word that decodes to a command is that command's encoding, and the command is well-formed. -/
def Obligations.EncodeOfDecodeIsTheWord : Prop :=
  ∀ (w : Word) (i : Instr), decode w = .ok i → i.wellFormed = true ∧ encode i = w

/-- R60: a word spells a command, with its operands in bits [15:8] and [23:16], exactly when it matches the command's
row; no word matches two rows; opcodes 0x7..0xF spell none. -/
def Obligations.WordSpellsCommandByMatchAndMask : Prop :=
  ∀ w : Word,
    (w &&& 0xFFFFFFFF = 0x00000000 ↔ decode w = .ok .nop) ∧
    (w &&& 0xFFFFFFFF = 0x00000001 ↔ decode w = .ok .init) ∧
    (w &&& 0xFF0000FF = 0x00000002 ↔
      decode w = .ok (.xorRate (w.extractLsb' 8 8).toNat (w.extractLsb' 16 8).toNat)) ∧
    (w &&& 0xFFFFFFFF = 0x00000003 ↔ decode w = .ok .permute) ∧
    (w &&& 0xFFFFFFFF = 0x00000004 ↔ decode w = .ok .absorb) ∧
    (w &&& 0xFFFF00FF = 0x00000005 ↔ decode w = .ok (.absorbFinal (w.extractLsb' 8 8).toNat)) ∧
    (w &&& 0xFF00FFFF = 0x00000006 ↔ decode w = .ok (.squeeze (w.extractLsb' 16 8).toNat)) ∧
    (opcodeRows.filter (matchesRow w)).length ≤ 1 ∧
    (0x7 ≤ (w.extractLsb' 0 4).toNat → ∀ i, decode w ≠ .ok i)

/-- R61: a word with a reserved opcode records ILLEGAL_OPCODE (code 1) with its opcode and has no other effect; while
ERR = 1 it is discarded. -/
def Obligations.ReservedOpcodeRecordsIllegalOpcode : Prop :=
  ∀ (w : Word) (s : State), s.inflight = none → 0x7 ≤ (w.extractLsb' 0 4).toNat →
    (s.err = false → acceptWord w s = .next { s with
      err := true, errCode := 1, errOp := w.extractLsb' 0 4, errP := true, out := zeroBlock, outValid := false }) ∧
    (s.err = true → acceptWord w s = .next s)

/-- R62: a word of opcode 0x0..0x6 that does not match its row has a nonzero reserved or unused field; it records
RESERVED_BITS (code 2) and has no other effect, subject to the error lock; where ERR = 1 already, the first code stays. -/
def Obligations.UnmatchedWordRecordsReservedBits : Prop :=
  ∀ (w : Word) (s : State), s.inflight = none → (w.extractLsb' 0 4).toNat ≤ 0x6 →
    matchesNoRow w = true →
    (w.extractLsb' 4 4 ≠ 0 ∨ w.extractLsb' 24 8 ≠ 0 ∨
      (w.extractLsb' 8 8 ≠ 0 ∧ w.extractLsb' 0 4 ≠ 0x2 ∧ w.extractLsb' 0 4 ≠ 0x5) ∨
      (w.extractLsb' 16 8 ≠ 0 ∧ w.extractLsb' 0 4 ≠ 0x2 ∧ w.extractLsb' 0 4 ≠ 0x6)) ∧
    (s.err = false → acceptWord w s = .next { s with
      err := true, errCode := 2, errOp := w.extractLsb' 0 4, errP := true, out := zeroBlock, outValid := false }) ∧
    (s.err = true → w.extractLsb' 0 4 = 0x0 ∨ w.extractLsb' 0 4 = 0x1 →
      acceptWord w s = .next { s with errP := true, out := zeroBlock, outValid := false }) ∧
    (s.err = true → w.extractLsb' 0 4 ≠ 0x0 → w.extractLsb' 0 4 ≠ 0x1 → acceptWord w s = .next s)

/-- R67 and its worked examples: these words decode so. -/
def Obligations.ExampleWordsDecode : Prop :=
  decode 0x00000000 = .ok .nop ∧ decode 0x00000001 = .ok .init ∧ decode 0x00060502 = .ok (.xorRate 5 6) ∧
  decode 0x00000003 = .ok .permute ∧ decode 0x00000004 = .ok .absorb ∧ decode 0x00000105 = .ok (.absorbFinal 1) ∧
  decode 0x00200006 = .ok (.squeeze 32) ∧ decode 0x00010005 = .error .reservedBits ∧
  decode 0x00000013 = .error .reservedBits ∧ decode 0x0000000F = .error .illegalOpcode

/-! ## The step -/

/-- R29, R55, R95: with no command in flight, the step at a CMD write of a word that decodes to `i` is `exec i`, after
the write has left the host's accesses and one step has passed. -/
def Obligations.StepRunsThePresentedCommand : Prop :=
  ∀ (s : State) (w : Word) (i : Instr) (rest : List HostStmt), undisturbed s → s.inflight = none →
    s.host = .write (s.base + 0x008) 4 w :: rest → decode w = .ok i →
    step s = exec i { s with
      host := rest, latLeft := s.latLeft - 1, resetPin := s.resetPin.tail, tick := s.tick + 1 }

/-- R95, R101, R103: with no command in flight, the step at a CMD write of a word that decodes to no command records the
decoder's error, or discards the word under the error lock. -/
def Obligations.StepRefusesAWordThatIsNoCommand : Prop :=
  ∀ (s : State) (w : Word) (e : ErrCode) (rest : List HostStmt), undisturbed s → s.inflight = none →
    s.host = .write (s.base + 0x008) 4 w :: rest → decode w = .error e →
    step s = .next
      (if s.err = true ∧ w.extractLsb' 0 4 ≠ 0x0 ∧ w.extractLsb' 0 4 ≠ 0x1 then popHost (advance s)
       else recordError e (w.extractLsb' 0 4) (popHost (advance s)))

/-- R98: when its latency has run out, the step is the in-flight command's completion: `exec` of the command in flight. -/
def Obligations.StepCompletesTheCommandInFlight : Prop :=
  ∀ (s : State) (fl : InFlight) (i : Instr), undisturbed s → s.inflight = some fl → s.latLeft = 0 →
    decode fl.cmd = .ok i → step s = exec i (advance s)

/-- R55: a CMD write while a command is in flight does not complete: the step leaves it at the head of the host's
accesses and changes nothing of the block (`rnd`, R39, and the time left to completion apart). -/
def Obligations.CommandWriteIsHeldWhileBusy : Prop :=
  ∀ (s : State) (w : Word) (rest : List HostStmt), hostTurn s → s.inflight.isSome = true →
    s.host = .write (s.base + 0x008) 4 w :: rest →
    ∃ r, step s = .next { s with
      latLeft := s.latLeft - 1, resetPin := s.resetPin.tail, rnd := r, tick := s.tick + 1 }

/-- R55: the hold is always lifted: after the steps of its latency and the completion itself no command is in flight, the
held write is still the host's next access, and the step after that accepts it. -/
def Obligations.HeldCommandWriteIsAlwaysAccepted : Prop :=
  ∀ (s : State) (w : Word) (rest : List HostStmt), StateInv s → s.secondHost = [] → (∀ b ∈ s.resetPin, b = false) →
    s.inflight.isSome = true → s.host = .write (s.base + 0x008) 4 w :: rest →
    ∃ t, Sys2Proof.core.run (s.latLeft + 1) s = .next t ∧ t.inflight = none ∧ t.host = s.host ∧
      step t = acceptWord w (popHost (advance t))

/-- R17(d), R114: a run in which two host agents drive the instance is refused, in every state. -/
def Obligations.TwoHostsAreRefused : Prop :=
  ∀ s : State, s.secondHost ≠ [] → step s = .refused .twoHosts

/-- R117: reset sets every piece of state to its reset value, in the reset state and at a reset at any moment. -/
def Obligations.ResetSetsEveryPieceOfState : Prop :=
  ∀ t : State,
    (t = State.reset ∨ ∃ s pins, s.secondHost = [] ∧ s.resetPin = true :: pins ∧ step s = .next t) →
    (∀ (i : Nat) (h : i < 25), t.lanes[i] = 0) ∧ (∀ (p : Nat) (h : p < 136), t.buf[p] = 0 ∧ t.out[p] = 0) ∧
    t.phase = .idle ∧ t.outValid = false ∧ t.err = false ∧ t.errCode = 0 ∧ t.errOp = 0 ∧
    t.doneIE = false ∧ t.errIE = false ∧ t.doneP = false ∧ t.errP = false ∧ t.inflight = none ∧ t.rnd = 0 ∧
    memRead t 0x00C 4 = .ok 0x00000000 ∧ irq t = false ∧
    memRead t 0x000 4 = .ok 0x53484133 ∧ memRead t 0x004 4 = .ok 0x00182088

/-- R118: a reset abandons the command in flight and sets no DONE_P; a CMD write held at that moment is the next access
after it and is accepted against the reset state: a held INIT goes in flight, a held ABSORB records BAD_PHASE. -/
def Obligations.ResetAbandonsTheCommandAndKeepsTheHeldWrite : Prop :=
  ∀ (s : State) (w : Word) (rest : List HostStmt) (pins : List Bool), s.secondHost = [] →
    s.resetPin = true :: pins → pins.headD false = false → s.host = .write (s.base + 0x008) 4 w :: rest →
    ∃ t, step s = .next t ∧ t.inflight = none ∧ t.doneP = false ∧ t.lanes = zeroLanes ∧ t.host = s.host ∧
      step t = acceptWord w (popHost (advance t)) ∧
      (w = 0x00000001 → ∃ u, step t = .next u ∧ u.inflight = some { cmd := w, snap := zeroBlock }) ∧
      (w = 0x00000004 → ∃ u, step t = .next u ∧ u.inflight = none ∧ u.err = true ∧ u.errCode = 3 ∧ u.errOp = 4)

/-- R19, R116: a host that makes no access leaves the idle block as it is. -/
def Obligations.IdleBlockKeepsEveryState : Prop :=
  ∀ s : State, undisturbed s → s.host = [] → s.inflight = none →
    step s = .next { s with latLeft := s.latLeft - 1, resetPin := s.resetPin.tail, tick := s.tick + 1 }

/-! ## The host port -/

/-- R43, R45, R46, R47: at the host's turn, a read or a write of an offset from BASE gets an error response, and so has
no next state, exactly when it is not a 32-bit access at an aligned offset that the register map lets be read, or
written; an access outside the 0x1000 bytes from BASE is none of this block's and is refused (log 7). -/
def Obligations.BusErrorsAreExactlyTheUnsupportedAccesses : Prop :=
  ∀ s : State, hostTurn s →
    (∀ (off : Offset) (size : Nat) (rest : List HostStmt), s.host = .read (s.base + off.toNat) size :: rest →
      ((∃ f, step s = .fault f) ↔ ¬ readable off.toNat size)) ∧
    (∀ (off : Offset) (size : Nat) (w : Word) (rest : List HostStmt), s.host = .write (s.base + off.toNat) size w :: rest →
      ((∃ f, step s = .fault f) ↔ ¬ writable off.toNat size)) ∧
    (∀ (addr size : Nat) (w : Word) (rest : List HostStmt), addr < s.base ∨ s.base + 0x1000 ≤ addr →
      s.host = .read addr size :: rest ∨ s.host = .write addr size w :: rest → step s = .refused .outsideBlock)

/-- R52, R53: a read has no side effect: after it the access is done, its value is with the host, and nothing else of
the block has changed. -/
def Obligations.ReadsHaveNoSideEffect : Prop :=
  ∀ (s : State) (off : Offset) (size : Nat) (rest : List HostStmt), hostTurn s →
    s.host = .read (s.base + off.toNat) size :: rest →
    readable off.toNat size →
    ∃ v, memRead s off size = .ok v ∧ step s = .next { advance s with host := rest, reads := s.reads ++ [v] }

/-- R27, R28, R30, R35, R36, R51: what reading each register returns. -/
def Obligations.RegisterReadsReturnTheRegisterWords : Prop :=
  ∀ s : State,
    memRead s 0x000 4 = .ok 0x53484133 ∧ memRead s 0x004 4 = .ok 0x00182088 ∧
    memRead s 0x00C 4 = .ok (statusWord s) ∧
    (∃ v, memRead s 0x010 4 = .ok v ∧ v.toNat = s.doneIE.toNat + 2 * s.errIE.toNat) ∧
    (∃ v, memRead s 0x014 4 = .ok v ∧ v.toNat = s.doneP.toNat + 2 * s.errP.toNat)

/-- R30: the fields of STATUS, its reserved bits 0, its value at reset, and that reading it changes nothing. -/
def Obligations.StatusWordHoldsItsFields : Prop :=
  statusWord State.reset = 0x00000000 ∧
  ∀ s : State,
    (statusWord s).toNat = (busy s).toNat + 2 * (phaseBits s.phase).toNat + 8 * s.outValid.toNat + 16 * s.err.toNat +
      256 * s.errCode.toNat + 4096 * s.errOp.toNat ∧
    (statusWord s).extractLsb' 5 3 = 0 ∧ (statusWord s).extractLsb' 16 16 = 0 ∧
    (∀ rest, hostTurn s → s.host = .read (s.base + 0x00C) 4 :: rest →
      step s = .next { advance s with host := rest, reads := s.reads ++ [statusWord s] })

/-- R31: BUSY is 1 exactly while a command is in flight: acceptance of a command other than NOP sets it, completion
clears it, and a refused command and NOP leave it 0. -/
def Obligations.BusyIsThatACommandIsInFlight : Prop :=
  busy State.reset = false ∧
  (∀ s : State, (statusWord s).getLsbD 0 = s.inflight.isSome) ∧
  (∀ (i : Instr) (s t : State), s.inflight = none → exec i s = .next t →
    (busy t = true ↔ (locked s i.opcode = false ∧ legal s.phase i = true ∧ inRange i = true ∧ i ≠ .nop))) ∧
  (∀ (w : Word) (e : ErrCode) (s t : State), s.inflight = none → decode w = .error e → acceptWord w s = .next t →
    busy t = false) ∧
  (∀ (i : Instr) (s t : State) (fl : InFlight), s.inflight = some fl → decode fl.cmd = .ok i → i ≠ .nop →
    exec i s = .next t → busy t = false)

/-- R35, R51, R120: INT_EN: the host's step at a write of it, a command in flight or not, sets the two enables from bits
0 and 1, ignores the other bits, which read 0, and changes nothing else; it is 0 at reset. -/
def Obligations.InterruptEnableRegister : Prop :=
  memRead State.reset 0x010 4 = .ok 0x00000000 ∧
  ∀ (s : State) (w : Word),
    (∀ rest, hostTurn s → s.host = .write (s.base + 0x010) 4 w :: rest →
      step s = .next { advance s with host := rest, doneIE := w.getLsbD 0, errIE := w.getLsbD 1 }) ∧
    memWrite 0x010 4 w s = .next { s with doneIE := w.getLsbD 0, errIE := w.getLsbD 1 } ∧
    ∃ v, memRead s 0x010 4 = .ok v ∧ v.getLsbD 0 = s.doneIE ∧ v.getLsbD 1 = s.errIE ∧ ∀ k, 2 ≤ k → v.getLsbD k = false

/-- R36, R51, R98, R102, R120: INT_STAT: completion of every in-flight command sets DONE_P and leaves ERR_P; every
RecordError sets ERR_P and leaves DONE_P; the host's step at a write of it, a command in flight or not, clears each bit
written 1, leaves each bit written 0 and changes nothing else; the other bits read 0; 0 at reset. -/
def Obligations.InterruptStatusRegister : Prop :=
  memRead State.reset 0x014 4 = .ok 0x00000000 ∧
  (∀ (i : Instr) (s t : State) (fl : InFlight), s.inflight = some fl → decode fl.cmd = .ok i → i ≠ .nop →
    exec i s = .next t → t.doneP = true ∧ t.errP = s.errP) ∧
  (∀ (e : ErrCode) (op : BitVec 4) (s : State), (recordError e op s).errP = true ∧
    (recordError e op s).doneP = s.doneP) ∧
  (∀ (s : State) (w : Word),
    (∀ rest, hostTurn s → s.host = .write (s.base + 0x014) 4 w :: rest →
      step s = .next { advance s with
        host := rest, doneP := s.doneP && !w.getLsbD 0, errP := s.errP && !w.getLsbD 1 }) ∧
    memWrite 0x014 4 w s = .next { s with doneP := s.doneP && !w.getLsbD 0, errP := s.errP && !w.getLsbD 1 } ∧
    ∃ v, memRead s 0x014 4 = .ok v ∧ v.getLsbD 0 = s.doneP ∧ v.getLsbD 1 = s.errP ∧ ∀ k, 2 ≤ k → v.getLsbD k = false)

/-- R37: `irq = (DONE_P & DONE_IE) | (ERR_P & ERR_IE)`, 0 after reset. -/
def Obligations.InterruptOutputLevel : Prop :=
  irq State.reset = false ∧
  ∀ s : State, irq s = true ↔ (s.doneP = true ∧ s.doneIE = true) ∨ (s.errP = true ∧ s.errIE = true)

/-- R49, R57: a write of BUF word `j` at the host's turn, a command in flight or not, puts byte `k` of the word into
BUF[4j+k], leaves every other byte of the buffers and everything else (the command in flight and its snapshot too), and
a read of BUF word `j` returns the four bytes. -/
def Obligations.BufferWriteStoresItsFourBytes : Prop :=
  ∀ (s : State) (j : Nat) (w : Word) (rest : List HostStmt), j < 34 → hostTurn s →
    s.host = .write (s.base + (0x100 + 4 * j)) 4 w :: rest →
    ∃ t, step s = .next t ∧ t = { advance s with host := rest, buf := t.buf } ∧
      (∀ k < 4, byteAt t (0x100 + 4 * j + k) = some (w.extractLsb' (8 * k) 8)) ∧
      (∀ a, (a < 0x100 + 4 * j ∨ 0x100 + 4 * j + 4 ≤ a) → byteAt t a = byteAt s a) ∧
      (∃ v, memRead s (BitVec.ofNat 12 (0x100 + 4 * j)) 4 = .ok v ∧
        ∀ k < 4, byteAt s (0x100 + 4 * j + k) = some (v.extractLsb' (8 * k) 8))

/-- R50: a read of OUT word `j` at the host's turn, a command in flight or not, returns the four bytes OUT holds. -/
def Obligations.OutputReadReturnsItsFourBytes : Prop :=
  ∀ (s : State) (j : Nat) (rest : List HostStmt), j < 34 → hostTurn s →
    s.host = .read (s.base + (0x200 + 4 * j)) 4 :: rest →
    ∃ v, step s = .next { advance s with host := rest, reads := s.reads ++ [v] } ∧
      ∀ k < 4, byteAt s (0x200 + 4 * j + k) = some (v.extractLsb' (8 * k) 8)

/-! ## Acceptance and errors -/

/-- R94: the phase legality table, and BAD_PHASE for a word that decodes to a command the phase does not allow, where
the error lock does not discard it. -/
def Obligations.PhaseLegalityTable : Prop :=
  (∀ p, legal p .nop = true ∧ legal p .init = true) ∧
  (∀ o c n, legal .idle (.xorRate o c) = false ∧ legal .idle .permute = false ∧ legal .idle .absorb = false ∧
    legal .idle (.absorbFinal n) = false ∧ legal .idle (.squeeze c) = false ∧
    legal .absorb (.xorRate o c) = true ∧ legal .absorb .permute = true ∧ legal .absorb .absorb = true ∧
    legal .absorb (.absorbFinal n) = true ∧ legal .absorb (.squeeze c) = false ∧
    legal .squeeze (.xorRate o c) = false ∧ legal .squeeze .permute = true ∧ legal .squeeze .absorb = false ∧
    legal .squeeze (.absorbFinal n) = false ∧ legal .squeeze (.squeeze c) = true) ∧
  (∀ (w : Word) (i : Instr) (s : State), s.inflight = none → s.err = false → decode w = .ok i →
    legal s.phase i = false → acceptWord w s = .next (recordError .badPhase (w.extractLsb' 0 4) s))

/-- R95, R101, R104: a CMD write that is performed with no command in flight is acceptance of its word, and while one is
in flight it does not complete; acceptance is the priority chain: the error lock, ILLEGAL_OPCODE, RESERVED_BITS,
BAD_PHASE, BAD_RANGE, NOP, and otherwise the word itself goes in flight with a copy of BUF. -/
def Obligations.AcceptanceIsThePriorityChain : Prop :=
  (∀ (s : State) (w : Word) (rest : List HostStmt), undisturbed s → s.host = .write (s.base + 0x008) 4 w :: rest →
    (s.inflight = none → step s = acceptWord w (popHost (advance s))) ∧
    (∀ t, s.inflight.isSome = true → step s = .next t → t.host = s.host)) ∧
  ∀ (w : Word) (s : State), s.inflight = none →
    let op := w.extractLsb' 0 4
    let fa := (w.extractLsb' 8 8).toNat
    let fb := (w.extractLsb' 16 8).toNat
    acceptWord w s = .next
      (if s.err = true ∧ op ≠ 0x0 ∧ op ≠ 0x1 then s
       else if 0x7 ≤ op.toNat then recordError .illegalOpcode op s
       else if matchesNoRow w = true then recordError .reservedBits op s
       else if ((op = 0x2 ∨ op = 0x4 ∨ op = 0x5) ∧ s.phase ≠ .absorb) ∨ (op = 0x3 ∧ s.phase = .idle) ∨
          (op = 0x6 ∧ s.phase ≠ .squeeze) then recordError .badPhase op s
       else if (op = 0x2 ∧ 136 < fa + fb) ∨ (op = 0x5 ∧ 135 < fa) ∨ (op = 0x6 ∧ (fb = 0 ∨ 136 < fb)) then
          recordError .badRange op s
       else if op = 0x0 then s
       else { s with inflight := some { cmd := w, snap := s.buf }, latLeft := drawLatency s,
                     latDraws := s.latDraws.tail, rnd := 0 })

/-- R102: RecordError keeps the first code and opcode, sets ERR and ERR_P, clears OUT and OUT_VALID and changes nothing
else; and it happens only at acceptance: a step that raises ERR or ERR_P accepts a CMD write, with no command in flight. -/
def Obligations.RecordErrorIsTheOnlyErrorAction : Prop :=
  (∀ (e : ErrCode) (op : BitVec 4) (s : State), s.err = false →
    recordError e op s = { s with err := true, errCode := errCodeBits e, errOp := op, errP := true, out := zeroBlock,
                                  outValid := false }) ∧
  (∀ (e : ErrCode) (op : BitVec 4) (s : State), s.err = true →
    recordError e op s = { s with errP := true, out := zeroBlock, outValid := false }) ∧
  (∀ s t : State, step s = .next t → (s.err = false ∧ t.err = true) ∨ (s.errP = false ∧ t.errP = true) →
    ∃ w rest e, s.host = .write (s.base + 0x008) 4 w :: rest ∧ s.inflight = none ∧
      t = recordError e (w.extractLsb' 0 4) (popHost (advance s)))

/-- R103: while ERR = 1, a CMD write of a word whose opcode is neither 0x0 nor 0x1 changes no state of the block; a word
with opcode 0x0 or 0x1 is validated normally. -/
def Obligations.ErrorLockDiscardsEveryOtherWord : Prop :=
  ∀ (w : Word) (s : State), s.inflight = none → s.err = true →
    (w.extractLsb' 0 4 ≠ 0x0 → w.extractLsb' 0 4 ≠ 0x1 → acceptWord w s = .next s) ∧
    (w.extractLsb' 0 4 = 0x0 ∨ w.extractLsb' 0 4 = 0x1 →
      (w = 0x00000000 → acceptWord w s = .next s) ∧
      (w = 0x00000001 → ∃ t, acceptWord w s = .next t ∧ t.inflight = some { cmd := 0x00000001, snap := s.buf }) ∧
      (w ≠ 0x00000000 → w ≠ 0x00000001 → acceptWord w s = .next (recordError .reservedBits (w.extractLsb' 0 4) s)))

/-- R34, R103, R105: from a state that keeps the invariant with ERR = 1, every step but a reset and the completion of an
INIT leaves the first error's code and opcode in STATUS, OUT all zero and OUT_VALID 0, and the matrix and the phase. -/
def Obligations.ErrorStaysUntilInitCompletes : Prop :=
  ∀ s t : State, StateInv s → s.err = true → step s = .next t → resetDue s = false →
    (∃ snap, s.inflight = some { cmd := 0x00000001, snap := snap } ∧ s.latLeft = 0 ∧ t.err = false) ∨
    (t.err = true ∧ t.errCode = s.errCode ∧ t.errOp = s.errOp ∧ t.out = zeroBlock ∧ t.outValid = false ∧
      t.lanes = s.lanes ∧ t.phase = s.phase)

/-! ## The commands: acceptance, completion, and what each leaves alone -/

/-- R96: NOP, the single word 0: it completes in every state and changes nothing, while ERR = 1 too; its opcode with
another bit set records RESERVED_BITS. -/
def Obligations.NopChangesNothing : Prop :=
  encode .nop = 0x00000000 ∧ (∀ s, exec .nop s = .next s) ∧
  (∀ s, s.inflight = none → acceptWord 0x00000000 s = .next s) ∧
  (∀ (w : Word) (s : State), s.inflight = none → w.extractLsb' 0 4 = 0x0 → w ≠ 0x00000000 →
    acceptWord w s = .next (recordError .reservedBits 0x0 s))

/-- R97: INIT: accepted in every phase, under the error lock too; its completion opens a fresh context, clears the error
and leaves BUF, INT_EN and ERR_P; no other command clears an error. -/
def Obligations.InitOpensAFreshContext : Prop :=
  encode .init = 0x00000001 ∧
  (∀ s, s.inflight = none → exec .init s = .next { s with
    inflight := some { cmd := 0x00000001, snap := s.buf }, latLeft := drawLatency s, latDraws := s.latDraws.tail,
    rnd := 0 }) ∧
  (∀ s snap, s.inflight = some { cmd := 0x00000001, snap := snap } → exec .init s = .next { s with
    lanes := zeroLanes, out := zeroBlock, outValid := false, phase := .absorb, err := false, errCode := 0, errOp := 0,
    inflight := none, doneP := true, rnd := 0, latLeft := 0 }) ∧
  (∀ s snap t, s.inflight = some { cmd := 0x00000001, snap := snap } → exec .init s = .next t →
    statusWord t = 0x00000002) ∧
  (∀ (w : Word) (s : State), s.inflight = none → w.extractLsb' 0 4 = 0x1 → w ≠ 0x00000001 →
    acceptWord w s = .next (recordError .reservedBits 0x1 s)) ∧
  (∀ i s t, exec i s = .next t → s.err = true → t.err = false → i = .init)

/-- R70: XOR_RATE OFFSET, COUNT: accepted in phase ABSORB with OFFSET + COUNT ≤ 136, BAD_PHASE and BAD_RANGE otherwise;
its completion XORs the snapshot's bytes into the rate and changes nothing else but the completion bookkeeping. -/
def Obligations.XorRateCommand : Prop :=
  ∀ o c : Nat, o < 256 → c < 256 →
    (∀ s, s.inflight = none → s.err = false → s.phase = .absorb → o + c ≤ 136 →
      exec (.xorRate o c) s = .next { s with
        inflight := some { cmd := BitVec.ofNat 32 (0x2 + 256 * o + 65536 * c), snap := s.buf },
        latLeft := drawLatency s, latDraws := s.latDraws.tail, rnd := 0 }) ∧
    (∀ s, s.inflight = none → s.err = false → s.phase ≠ .absorb →
      exec (.xorRate o c) s = .next (recordError .badPhase 0x2 s)) ∧
    (∀ s, s.inflight = none → s.err = false → s.phase = .absorb → 136 < o + c →
      exec (.xorRate o c) s = .next (recordError .badRange 0x2 s)) ∧
    (∀ s snap, s.inflight = some { cmd := BitVec.ofNat 32 (0x2 + 256 * o + 65536 * c), snap := snap } →
      exec (.xorRate o c) s = .next { s with
        lanes := xorRate s.lanes snap o c, inflight := none, doneP := true, rnd := 0, latLeft := 0 })

/-- R78, R79, R81: KeccakF applies the rounds 0 to 23 in increasing order, and a round is theta, rho and pi, chi and
iota, each on the whole output of the one before; PERMUTE: accepted in phases ABSORB and SQUEEZE, BAD_PHASE in IDLE; its
completion applies KeccakF to the matrix and changes nothing else but the completion bookkeeping. -/
def Obligations.PermuteCommand : Prop :=
  (∀ (A : Lanes) (ir : Fin 24), round A ir = iota (chi (rhoPi (theta A))) ir) ∧
  (∀ B : Nat → Lanes, (∀ ir : Fin 24, B (ir.val + 1) = round (B ir.val) ir) → keccakF (B 0) = B 24) ∧
  (∀ s, s.inflight = none → s.err = false → s.phase ≠ .idle → exec .permute s = .next { s with
    inflight := some { cmd := 0x00000003, snap := s.buf }, latLeft := drawLatency s, latDraws := s.latDraws.tail,
    rnd := 0 }) ∧
  (∀ s, s.inflight = none → s.err = false → s.phase = .idle →
    exec .permute s = .next (recordError .badPhase 0x3 s)) ∧
  (∀ s snap, s.inflight = some { cmd := 0x00000003, snap := snap } → exec .permute s = .next { s with
    lanes := keccakF s.lanes, inflight := none, doneP := true, rnd := 0, latLeft := 0 })

/-- R86: ABSORB: accepted in phase ABSORB, BAD_PHASE otherwise; its completion XORs the whole snapshot into the rate and
permutes, and changes nothing else but the completion bookkeeping. -/
def Obligations.AbsorbCommand : Prop :=
  (∀ s, s.inflight = none → s.err = false → s.phase = .absorb → exec .absorb s = .next { s with
    inflight := some { cmd := 0x00000004, snap := s.buf }, latLeft := drawLatency s, latDraws := s.latDraws.tail,
    rnd := 0 }) ∧
  (∀ s, s.inflight = none → s.err = false → s.phase ≠ .absorb →
    exec .absorb s = .next (recordError .badPhase 0x4 s)) ∧
  (∀ s snap, s.inflight = some { cmd := 0x00000004, snap := snap } → exec .absorb s = .next { s with
    lanes := keccakF (xorRate s.lanes snap 0 136), inflight := none, doneP := true, rnd := 0, latLeft := 0 })

/-- R87: ABSORB_FINAL LEN: accepted in phase ABSORB with LEN ≤ 135, BAD_PHASE and BAD_RANGE otherwise; its completion
absorbs the padded block, enters phase SQUEEZE, and changes nothing else but the completion bookkeeping. -/
def Obligations.AbsorbFinalCommand : Prop :=
  ∀ n : Nat, n < 256 →
    (∀ s, s.inflight = none → s.err = false → s.phase = .absorb → n ≤ 135 →
      exec (.absorbFinal n) s = .next { s with
        inflight := some { cmd := BitVec.ofNat 32 (0x5 + 256 * n), snap := s.buf }, latLeft := drawLatency s,
        latDraws := s.latDraws.tail, rnd := 0 }) ∧
    (∀ s, s.inflight = none → s.err = false → s.phase ≠ .absorb →
      exec (.absorbFinal n) s = .next (recordError .badPhase 0x5 s)) ∧
    (∀ s, s.inflight = none → s.err = false → s.phase = .absorb → 135 < n →
      exec (.absorbFinal n) s = .next (recordError .badRange 0x5 s)) ∧
    (∀ s snap, s.inflight = some { cmd := BitVec.ofNat 32 (0x5 + 256 * n), snap := snap } →
      exec (.absorbFinal n) s = .next { s with
        lanes := keccakF (xorRate s.lanes (pad snap n) 0 136), phase := .squeeze, inflight := none, doneP := true,
        rnd := 0, latLeft := 0 })

/-- R89: SQUEEZE COUNT: accepted in phase SQUEEZE with 1 ≤ COUNT ≤ 136, BAD_PHASE and BAD_RANGE otherwise; its
completion copies the first COUNT rate bytes into OUT, byte `p` being bits 8*(p mod 8)+7 to 8*(p mod 8) of lane
`p div 8`, zeroes the rest of OUT, sets OUT_VALID, and changes nothing else
but the completion bookkeeping. -/
def Obligations.SqueezeCommand : Prop :=
  ∀ c : Nat, c < 256 →
    (∀ s, s.inflight = none → s.err = false → s.phase = .squeeze → 1 ≤ c → c ≤ 136 →
      exec (.squeeze c) s = .next { s with
        inflight := some { cmd := BitVec.ofNat 32 (0x6 + 65536 * c), snap := s.buf }, latLeft := drawLatency s,
        latDraws := s.latDraws.tail, rnd := 0 }) ∧
    (∀ s, s.inflight = none → s.err = false → s.phase ≠ .squeeze →
      exec (.squeeze c) s = .next (recordError .badPhase 0x6 s)) ∧
    (∀ s, s.inflight = none → s.err = false → s.phase = .squeeze → (c = 0 ∨ 136 < c) →
      exec (.squeeze c) s = .next (recordError .badRange 0x6 s)) ∧
    (∀ s snap, s.inflight = some { cmd := BitVec.ofNat 32 (0x6 + 65536 * c), snap := snap } →
      exec (.squeeze c) s = .next { s with
        out := Vector.ofFn fun p : Fin 136 =>
          if p.val < c then (s.lanes[p.val / 8]'(by omega) >>> (8 * (p.val % 8))).setWidth 8 else 0,
        outValid := true, inflight := none, doneP := true, rnd := 0, latLeft := 0 })

/-- R24, R25, R70, R71, R93, R98: the frame of every command's step. BASE, BUF, the interrupt enables, the host's accesses and
what it has read never change; acceptance changes no lane and no phase; NOP and SQUEEZE change no lane and XOR_RATE no
capacity lane; only INIT and ABSORB_FINAL change the phase; and every byte of OUT stays, but for SQUEEZE, INIT and a
recorded error. -/
def Obligations.FrameOfEveryCommand : Prop :=
  ∀ (i : Instr) (s t : State), exec i s = .next t →
    t.base = s.base ∧ t.buf = s.buf ∧ t.doneIE = s.doneIE ∧ t.errIE = s.errIE ∧ t.host = s.host ∧ t.secondHost = s.secondHost ∧
    t.resetPin = s.resetPin ∧ t.reads = s.reads ∧ t.tick = s.tick ∧
    (∀ a, a < 0x200 → byteAt t a = byteAt s a) ∧
    (s.inflight = none → t.lanes = s.lanes ∧ t.phase = s.phase) ∧
    (i = .nop ∨ (∃ c, i = .squeeze c) → t.lanes = s.lanes) ∧
    ((∃ o c, i = .xorRate o c) → ∀ (k : Nat) (h : k < 25), 17 ≤ k → t.lanes[k] = s.lanes[k]) ∧
    (i ≠ .init → (∀ n, i ≠ .absorbFinal n) → t.phase = s.phase) ∧
    (i ≠ .init → (∀ c, i ≠ .squeeze c) → (s.err = true ∨ t.err = false) →
      t.outValid = s.outValid ∧ ∀ a, byteAt t a = byteAt s a)

/-! ## state_matrix_xor and padding -/

/-- R14, R68: XorRate XORs `data[p]` into byte `p mod 8` of lane `p div 8`, the lane's bits 8*(p mod 8)+7 to 8*(p mod 8),
for each position of the range, and leaves every other byte of every lane. -/
def Obligations.XorRateActsOnItsBytes : Prop :=
  ∀ (A : Lanes) (data : Block) (off cnt : Nat), off + cnt ≤ 136 → ∀ (i b : Nat) (hi : i < 25), b < 8 →
    ((xorRate A data off cnt)[i] >>> (8 * b)).setWidth 8 =
      if h : off ≤ 8 * i + b ∧ 8 * i + b < off + cnt ∧ 8 * i + b < 136 then
        (A[i] >>> (8 * b)).setWidth 8 ^^^ data[8 * i + b]'h.2.2
      else (A[i] >>> (8 * b)).setWidth 8

/-- R14, R69: ReadRate returns `cnt` bytes, byte `p` being bits 8*(p mod 8)+7 to 8*(p mod 8) of lane `p div 8`. -/
def Obligations.ReadRateReturnsTheFirstBytes : Prop :=
  ∀ (A : Lanes) (cnt : Nat), cnt ≤ 136 →
    (readRate A cnt).length = cnt ∧
    ∀ (p : Nat) (h : p < 136), p < cnt → (readRate A cnt)[p]? = some ((A[p / 8] >>> (8 * (p % 8))).setWidth 8)

/-- R71: no XorRate writes a capacity lane, and no ReadRate reads one. -/
def Obligations.RateAccessesNeverTouchTheCapacity : Prop :=
  (∀ (A : Lanes) (data : Block) (off cnt k : Nat) (h : k < 25), 17 ≤ k → (xorRate A data off cnt)[k] = A[k]) ∧
  (∀ (A B : Lanes) (cnt : Nat), (∀ (k : Nat) (h : k < 25), k < 17 → A[k] = B[k]) → readRate A cnt = readRate B cnt)

/-- R83: a message is extended to the smallest multiple of 136 bytes strictly greater than its length, by 1 to 136
padding bytes. -/
def Obligations.PaddedLengthIsTheNextMultiple : Prop :=
  ∀ msg : List Byte,
    (paddedMessage msg).length = msg.length + (136 - msg.length % 136) ∧
    (paddedMessage msg).length % 136 = 0 ∧ msg.length < (paddedMessage msg).length ∧
    (∀ m, m % 136 = 0 → msg.length < m → (paddedMessage msg).length ≤ m) ∧
    1 ≤ 136 - msg.length % 136 ∧ 136 - msg.length % 136 ≤ 136

/-- R84, R85: the bytes of `Pad(data, LEN)`, and that it reads only `data[0..LEN)`. -/
def Obligations.PadBuildsTheFinalBlock : Prop :=
  ∀ (data : Block) (len : Nat) (hl : len ≤ 135),
    (∀ (p : Nat) (h : p < len), (pad data len)[p] = data[p]) ∧
    (len = 135 → (pad data len)[135] = 0x86) ∧
    (len < 135 → (pad data len)[len] = 0x06 ∧ (pad data len)[135] = 0x80) ∧
    (∀ (p : Nat) (h : p < 135), len < p → (pad data len)[p] = 0x00) ∧
    (∀ other : Block, (∀ (p : Nat) (h : p < len), other[p] = data[p]) → pad other len = pad data len)

/-! ## The permutation -/

/-- R12: ROTL64 is the circular left rotation. -/
def Obligations.RotationIsCircular : Prop :=
  ∀ (v : Lane) (n : Nat), rotl64 v n = v.rotateLeft n ∧ rotl64 v 0 = v ∧
    ∀ (k : Nat), k < 64 → (rotl64 v n).getLsbD ((k + n) % 64) = v.getLsbD k

/-- R72, R75: every lane of theta, from the column parities of the input, and every lane of chi, from the row before the
step. -/
def Obligations.ThetaAndChiReadTheInputLanes : Prop :=
  ∀ (A : Lanes) (x y : Fin 5),
    let C : Fin 5 → Lane := fun u =>
      laneAt A u 0 ^^^ laneAt A u 1 ^^^ laneAt A u 2 ^^^ laneAt A u 3 ^^^ laneAt A u 4
    laneAt (theta A) x y = laneAt A x y ^^^ (C (x + 4) ^^^ (C (x + 1)).rotateLeft 1) ∧
    laneAt (chi A) x y = laneAt A x y ^^^ ((~~~ laneAt A (x + 1) y) &&& laneAt A (x + 2) y)

/-- R73, R74: the traversal and the closed form give the same matrix for every input, and every lane of it. -/
def Obligations.RhoPiTraversalEqualsItsClosedForm : Prop :=
  ∀ A : Lanes, rhoPiTraversal A = rhoPi A ∧
    ∀ x y : Fin 5, laneAt (rhoPiTraversal A) y (2 * x + 3 * y) = (laneAt A x y).rotateLeft (rotOffset x y)

/-- R76, R77: iota XORs the round constant of its index into lane (0,0) and leaves every other lane, and the 24 round
constants are those of the rule's table, taken as the rule states them (log 14). -/
def Obligations.IotaChangesOnlyTheFirstLane : Prop :=
  (∀ (A : Lanes) (ir : Fin 24),
    laneAt (iota A ir) 0 0 = laneAt A 0 0 ^^^ roundConstants[ir] ∧
    ∀ x y : Fin 5, (x, y) ≠ (0, 0) → laneAt (iota A ir) x y = laneAt A x y) ∧
  roundConstants[0] = 0x0000000000000001 ∧ roundConstants[12] = 0x000000008000808B ∧
  roundConstants[1] = 0x0000000000008082 ∧ roundConstants[13] = 0x800000000000008B ∧
  roundConstants[2] = 0x800000000000808A ∧ roundConstants[14] = 0x8000000000008089 ∧
  roundConstants[3] = 0x8000000080008000 ∧ roundConstants[15] = 0x8000000000008003 ∧
  roundConstants[4] = 0x000000000000808B ∧ roundConstants[16] = 0x8000000000008002 ∧
  roundConstants[5] = 0x0000000080000001 ∧ roundConstants[17] = 0x8000000000000080 ∧
  roundConstants[6] = 0x8000000080008081 ∧ roundConstants[18] = 0x000000000000800A ∧
  roundConstants[7] = 0x8000000000008009 ∧ roundConstants[19] = 0x800000008000000A ∧
  roundConstants[8] = 0x000000000000008A ∧ roundConstants[20] = 0x8000000080008081 ∧
  roundConstants[9] = 0x0000000000000088 ∧ roundConstants[21] = 0x8000000000008080 ∧
  roundConstants[10] = 0x0000000080008009 ∧ roundConstants[22] = 0x0000000080000001 ∧
  roundConstants[11] = 0x000000008000000A ∧ roundConstants[23] = 0x8000000080008008

/-! ## Absorption and hashing -/

/-- R86: ABSORB's two steps leave the lanes that `XOR_RATE 0, 136` followed by PERMUTE leaves, from the same BUF. -/
def Obligations.AbsorbEqualsXorRateThenPermute : Prop :=
  ∀ s : State, s.inflight = none → s.err = false → s.phase = .absorb →
    ∃ t u, runToCompletion .absorb s = .next t ∧
      andThen (runToCompletion (.xorRate 0 136) s) (runToCompletion .permute) = .next u ∧
      t.lanes = u.lanes ∧ t.phase = u.phase ∧ t.out = u.out ∧ t.buf = u.buf

/-- R88: absorbing a message's full blocks and then the padded last block, whatever BUF holds after the message's last
bytes, leaves the matrix that absorbing the padded message block by block leaves. -/
def Obligations.BlockAbsorptionEqualsPaddedMessage : Prop :=
  ∀ (A : Lanes) (msg : List Byte) (last : Block),
    (∀ (p : Nat) (h : p < 136), p < msg.length % 136 → msg[136 * (msg.length / 136) + p]? = some last[p]) →
    absorbBlocks A (paddedMessage msg) ((paddedMessage msg).length / 136) =
      absorbBlock (absorbBlocks A msg (msg.length / 136)) (pad last (msg.length % 136))

/-- R99, at the level of commands: from any state with no command in flight, the commands of `SHA3_256 M` complete and
leave `OUT[0..32) = hash(M)`, the rest of OUT 0, STATUS = 0x0000000C and DONE_P = 1. -/
def Obligations.HashCommandsComputeTheHash : Prop :=
  ∀ (msg : List Byte) (s : State), s.inflight = none →
    ∃ t, hashCommands msg s = .next t ∧ t.lanes = absorbMessage msg ∧
      (∀ (p : Nat) (h : p < 136), t.out[p] = if p < 32 then (sha3Hash msg).getD p 0 else 0) ∧
      statusWord t = 0x0000000C ∧ t.doneP = true ∧ t.inflight = none

/-! ## Whole-machine rules -/

/-- The invariant holds at reset. -/
def Obligations.InvariantHoldsAtReset : Prop := StateInv State.reset

/-- R25, R31 to R34, R39, R43, R95, R101: every step keeps the invariant, and leaves BASE as the platform chose it. -/
def Obligations.EveryStepKeepsTheInvariant : Prop :=
  ∀ s t : State, StateInv s → step s = .next t → StateInv t ∧ t.base = s.base

/-- R98: from a state that keeps the invariant, no step stops for want of a command to complete, and a completion that is
due answers a next state, with no command in flight and DONE_P set. -/
def Obligations.CompletionNeverStops : Prop :=
  ∀ s : State, StateInv s → step s ≠ .fault .noCommandInFlight ∧
    (undisturbed s → completionDue s = true → ∃ t, step s = .next t ∧ t.inflight = none ∧ t.doneP = true)

/-- R33, R93: the phase changes only at a reset, at the completion of an INIT and at the completion of an ABSORB_FINAL. -/
def Obligations.PhaseChangesOnlyByInitAbsorbFinalAndReset : Prop :=
  ∀ s t : State, step s = .next t → t.phase ≠ s.phase →
    (resetDue s = true ∧ t.phase = .idle) ∨
    (∃ fl, s.inflight = some fl ∧ s.latLeft = 0 ∧
      ((decode fl.cmd = .ok .init ∧ t.phase = .absorb) ∨
       (∃ n, decode fl.cmd = .ok (.absorbFinal n) ∧ t.phase = .squeeze)))

/-- R25: OUT changes only at the completion of a SQUEEZE or an INIT, at a recorded error and at a reset. -/
def Obligations.OutputIsWrittenOnlyBySqueezeInitAndErrors : Prop :=
  ∀ s t : State, step s = .next t → t.out ≠ s.out →
    (∃ fl, s.inflight = some fl ∧ s.latLeft = 0 ∧
      ((∃ c, decode fl.cmd = .ok (.squeeze c) ∧ t.out = squeezeOut s.lanes c ∧ t.outValid = true) ∨
       (decode fl.cmd = .ok .init ∧ t.out = zeroBlock ∧ t.outValid = false))) ∨
    (∃ w rest, s.host = .write (s.base + 0x008) 4 w :: rest ∧ s.inflight = none ∧ t.err = true ∧ t.out = zeroBlock ∧
      t.outValid = false) ∨
    (resetDue s = true ∧ t.out = zeroBlock)

/-- R22, R23: a capacity lane changes only at a reset and at the completion of an INIT, a PERMUTE, an ABSORB or an
ABSORB_FINAL; a rate lane also at the completion of an XOR_RATE. -/
def Obligations.CapacityChangesOnlyByPermutationAndInit : Prop :=
  ∀ s t : State, step s = .next t → ∀ (k : Nat) (h : k < 25), t.lanes[k] ≠ s.lanes[k] →
    resetDue s = true ∨
    ∃ fl i, s.inflight = some fl ∧ s.latLeft = 0 ∧ decode fl.cmd = .ok i ∧
      (i = .init ∨ i = .permute ∨ i = .absorb ∨ (∃ n, i = .absorbFinal n) ∨ (k < 17 ∧ ∃ o c, i = .xorRate o c))

/-- R92, R111: what the host can learn of the capacity: two states that differ only in the capacity lanes take steps that
differ only there, until a permuting command completes; the same reads return the same values and OUT stays the same. -/
def Obligations.CapacityIsOpaqueToTheHost : Prop :=
  ∀ s s' : State, agreeButCapacity s s' → ¬ (completionDue s = true ∧ permuting s = true) →
    (∀ t, step s = .next t → ∃ t', step s' = .next t' ∧ agreeButCapacity t t' ∧ t'.out = t.out ∧ t'.reads = t.reads) ∧
    (∀ f, step s = .fault f → step s' = .fault f) ∧ (∀ r, step s = .refused r → step s' = .refused r)

/-- R57, R121: while a command is in flight, what BUF holds has no effect on what the command does. -/
def Obligations.CommandInFlightIgnoresBuf : Prop :=
  ∀ (i : Instr) (s t : State) (b : Block), s.inflight.isSome = true → exec i s = .next t →
    exec i { s with buf := b } = .next { t with buf := b }

/-- R120: from acceptance to completion, whatever the host does, the matrix, OUT, OUT_VALID, PHASE, the error fields, the
command in flight and so STATUS keep the values from before the command. -/
def Obligations.StateHoldsWhileACommandIsInFlight : Prop :=
  ∀ s t : State, step s = .next t → s.inflight.isSome = true → resetDue s = false → s.latLeft ≠ 0 →
    t.lanes = s.lanes ∧ t.out = s.out ∧ t.outValid = s.outValid ∧ t.phase = s.phase ∧ t.err = s.err ∧
    t.errCode = s.errCode ∧ t.errOp = s.errOp ∧ t.inflight = s.inflight ∧ statusWord t = statusWord s ∧
    t.latLeft + 1 = s.latLeft

/-- R32: OUT_VALID rises only at the completion of a SQUEEZE and falls only at the completion of an INIT, at a recorded
error and at a reset. -/
def Obligations.OutputValidFollowsSqueezeInitAndErrors : Prop :=
  ∀ s t : State, step s = .next t →
    (s.outValid = false → t.outValid = true →
      ∃ fl c, s.inflight = some fl ∧ s.latLeft = 0 ∧ decode fl.cmd = .ok (.squeeze c)) ∧
    (s.outValid = true → t.outValid = false → resetDue s = true ∨
      (∃ fl, s.inflight = some fl ∧ s.latLeft = 0 ∧ decode fl.cmd = .ok .init) ∨
      (∃ w rest, s.host = .write (s.base + 0x008) 4 w :: rest ∧ s.inflight = none ∧ t.err = true ∧ t.errP = true))
end

