-- ==== Sys2Proof/Laws/Lanes.lean ====
section
/-! SUPPORT. The small lemmas of lanes, blocks and buffer words: reading a built matrix or block, reading after a
write. -/

namespace Sys2Proof.Machine

/-- R13: reading a lane of a built matrix. -/
@[simp] theorem laneAt_ofLanes (f : Fin 5 → Fin 5 → Lane) (x y : Fin 5) : laneAt (ofLanes f) x y = f x y := by
  have hx : (x.val + 5 * y.val) % 5 = x.val := by omega
  have hy : (x.val + 5 * y.val) / 5 = y.val := by omega
  simp [laneAt, ofLanes, hx, hy]

theorem lanes_ext {A B : Lanes} (h : ∀ x y : Fin 5, laneAt A x y = laneAt B x y) : A = B := by
  apply Vector.ext
  intro i hi
  have := h ⟨i % 5, by omega⟩ ⟨i / 5, by omega⟩
  simpa [laneAt, Nat.mod_add_div] using this

@[simp] theorem laneAt_zeroLanes (x y : Fin 5) : laneAt zeroLanes x y = 0 := by
  simp [laneAt, zeroLanes]

/-- R49: a byte of the written word reads as the word's byte. -/
theorem setBufferWord_inside (b : Block) (j : Fin 34) (w : Word) (k : Nat) (hk : k < 4) :
    (setBufferWord b j w)[4 * j.val + k] = w.extractLsb' (8 * k) 8 := by
  obtain rfl | rfl | rfl | rfl : k = 0 ∨ k = 1 ∨ k = 2 ∨ k = 3 := by omega
  all_goals simp [setBufferWord]

/-- R49: every byte outside the written word reads as before. -/
theorem setBufferWord_outside (b : Block) (j : Fin 34) (w : Word) (p : Nat) (hp : p < 136)
    (h : p < 4 * j.val ∨ 4 * j.val + 4 ≤ p) : (setBufferWord b j w)[p] = b[p] := by
  have h0 : ¬ 4 * j.val = p := by omega
  have h1 : ¬ 4 * j.val + 1 = p := by omega
  have h2 : ¬ 4 * j.val + 2 = p := by omega
  have h3 : ¬ 4 * j.val + 3 = p := by omega
  simp [setBufferWord, h0, h1, h2, h3]

/-- R48: byte `k` of a buffer word. -/
theorem bufferWord_byte (b : Block) (j : Fin 34) (k : Nat) (hk : k < 4) :
    (bufferWord b j).extractLsb' (8 * k) 8 = b[4 * j.val + k] := by
  obtain rfl | rfl | rfl | rfl : k = 0 ∨ k = 1 ∨ k = 2 ∨ k = 3 := by omega
  all_goals
    apply BitVec.eq_of_getLsbD_eq
    intro n hn
    interval_cases n <;> simp [bufferWord]

end Sys2Proof.Machine
end

