-- ==== Sys2Proof/Laws/State.lean ====
section
/-! SUPPORT. One lemma per field per update of the state, true by rfl: no later proof unfolds a record update. -/

namespace Sys2Proof.Machine

/-! ## recordError -/

section Recorderror
variable (e : ErrCode) (op : BitVec 4) (s : State)

@[simp] theorem recordError_lanes : (recordError e op s).lanes = s.lanes := rfl
@[simp] theorem recordError_buf : (recordError e op s).buf = s.buf := rfl
@[simp] theorem recordError_out : (recordError e op s).out = zeroBlock := rfl
@[simp] theorem recordError_phase : (recordError e op s).phase = s.phase := rfl
@[simp] theorem recordError_outValid : (recordError e op s).outValid = false := rfl
@[simp] theorem recordError_err : (recordError e op s).err = true := rfl
@[simp] theorem recordError_errCode : (recordError e op s).errCode = if s.err then s.errCode else errCodeBits e := rfl
@[simp] theorem recordError_errOp : (recordError e op s).errOp = if s.err then s.errOp else op := rfl
@[simp] theorem recordError_doneIE : (recordError e op s).doneIE = s.doneIE := rfl
@[simp] theorem recordError_errIE : (recordError e op s).errIE = s.errIE := rfl
@[simp] theorem recordError_doneP : (recordError e op s).doneP = s.doneP := rfl
@[simp] theorem recordError_errP : (recordError e op s).errP = true := rfl
@[simp] theorem recordError_inflight : (recordError e op s).inflight = s.inflight := rfl
@[simp] theorem recordError_rnd : (recordError e op s).rnd = s.rnd := rfl
@[simp] theorem recordError_latLeft : (recordError e op s).latLeft = s.latLeft := rfl
@[simp] theorem recordError_latDraws : (recordError e op s).latDraws = s.latDraws := rfl
@[simp] theorem recordError_host : (recordError e op s).host = s.host := rfl
@[simp] theorem recordError_base : (recordError e op s).base = s.base := rfl
@[simp] theorem recordError_secondHost : (recordError e op s).secondHost = s.secondHost := rfl
@[simp] theorem recordError_resetPin : (recordError e op s).resetPin = s.resetPin := rfl
@[simp] theorem recordError_reads : (recordError e op s).reads = s.reads := rfl
@[simp] theorem recordError_tick : (recordError e op s).tick = s.tick := rfl

end Recorderror

/-! ## start -/

section Start
variable (i : Instr) (s : State)

@[simp] theorem start_lanes : (start i s).lanes = s.lanes := rfl
@[simp] theorem start_buf : (start i s).buf = s.buf := rfl
@[simp] theorem start_out : (start i s).out = s.out := rfl
@[simp] theorem start_phase : (start i s).phase = s.phase := rfl
@[simp] theorem start_outValid : (start i s).outValid = s.outValid := rfl
@[simp] theorem start_err : (start i s).err = s.err := rfl
@[simp] theorem start_errCode : (start i s).errCode = s.errCode := rfl
@[simp] theorem start_errOp : (start i s).errOp = s.errOp := rfl
@[simp] theorem start_doneIE : (start i s).doneIE = s.doneIE := rfl
@[simp] theorem start_errIE : (start i s).errIE = s.errIE := rfl
@[simp] theorem start_doneP : (start i s).doneP = s.doneP := rfl
@[simp] theorem start_errP : (start i s).errP = s.errP := rfl
@[simp] theorem start_inflight : (start i s).inflight = some { cmd := encode i, snap := s.buf } := rfl
@[simp] theorem start_rnd : (start i s).rnd = 0 := rfl
@[simp] theorem start_latLeft : (start i s).latLeft = drawLatency s := rfl
@[simp] theorem start_latDraws : (start i s).latDraws = s.latDraws.tail := rfl
@[simp] theorem start_host : (start i s).host = s.host := rfl
@[simp] theorem start_base : (start i s).base = s.base := rfl
@[simp] theorem start_secondHost : (start i s).secondHost = s.secondHost := rfl
@[simp] theorem start_resetPin : (start i s).resetPin = s.resetPin := rfl
@[simp] theorem start_reads : (start i s).reads = s.reads := rfl
@[simp] theorem start_tick : (start i s).tick = s.tick := rfl

end Start

/-! ## finish -/

section Finish
variable (s : State)

@[simp] theorem finish_lanes : (finish s).lanes = s.lanes := rfl
@[simp] theorem finish_buf : (finish s).buf = s.buf := rfl
@[simp] theorem finish_out : (finish s).out = s.out := rfl
@[simp] theorem finish_phase : (finish s).phase = s.phase := rfl
@[simp] theorem finish_outValid : (finish s).outValid = s.outValid := rfl
@[simp] theorem finish_err : (finish s).err = s.err := rfl
@[simp] theorem finish_errCode : (finish s).errCode = s.errCode := rfl
@[simp] theorem finish_errOp : (finish s).errOp = s.errOp := rfl
@[simp] theorem finish_doneIE : (finish s).doneIE = s.doneIE := rfl
@[simp] theorem finish_errIE : (finish s).errIE = s.errIE := rfl
@[simp] theorem finish_doneP : (finish s).doneP = true := rfl
@[simp] theorem finish_errP : (finish s).errP = s.errP := rfl
@[simp] theorem finish_inflight : (finish s).inflight = none := rfl
@[simp] theorem finish_rnd : (finish s).rnd = 0 := rfl
@[simp] theorem finish_latLeft : (finish s).latLeft = 0 := rfl
@[simp] theorem finish_latDraws : (finish s).latDraws = s.latDraws := rfl
@[simp] theorem finish_host : (finish s).host = s.host := rfl
@[simp] theorem finish_base : (finish s).base = s.base := rfl
@[simp] theorem finish_secondHost : (finish s).secondHost = s.secondHost := rfl
@[simp] theorem finish_resetPin : (finish s).resetPin = s.resetPin := rfl
@[simp] theorem finish_reads : (finish s).reads = s.reads := rfl
@[simp] theorem finish_tick : (finish s).tick = s.tick := rfl

end Finish

/-! ## setLanes -/

section Setlanes
variable (A : Lanes) (s : State)

@[simp] theorem setLanes_lanes : (setLanes A s).lanes = A := rfl
@[simp] theorem setLanes_buf : (setLanes A s).buf = s.buf := rfl
@[simp] theorem setLanes_out : (setLanes A s).out = s.out := rfl
@[simp] theorem setLanes_phase : (setLanes A s).phase = s.phase := rfl
@[simp] theorem setLanes_outValid : (setLanes A s).outValid = s.outValid := rfl
@[simp] theorem setLanes_err : (setLanes A s).err = s.err := rfl
@[simp] theorem setLanes_errCode : (setLanes A s).errCode = s.errCode := rfl
@[simp] theorem setLanes_errOp : (setLanes A s).errOp = s.errOp := rfl
@[simp] theorem setLanes_doneIE : (setLanes A s).doneIE = s.doneIE := rfl
@[simp] theorem setLanes_errIE : (setLanes A s).errIE = s.errIE := rfl
@[simp] theorem setLanes_doneP : (setLanes A s).doneP = s.doneP := rfl
@[simp] theorem setLanes_errP : (setLanes A s).errP = s.errP := rfl
@[simp] theorem setLanes_inflight : (setLanes A s).inflight = s.inflight := rfl
@[simp] theorem setLanes_rnd : (setLanes A s).rnd = s.rnd := rfl
@[simp] theorem setLanes_latLeft : (setLanes A s).latLeft = s.latLeft := rfl
@[simp] theorem setLanes_latDraws : (setLanes A s).latDraws = s.latDraws := rfl
@[simp] theorem setLanes_host : (setLanes A s).host = s.host := rfl
@[simp] theorem setLanes_base : (setLanes A s).base = s.base := rfl
@[simp] theorem setLanes_secondHost : (setLanes A s).secondHost = s.secondHost := rfl
@[simp] theorem setLanes_resetPin : (setLanes A s).resetPin = s.resetPin := rfl
@[simp] theorem setLanes_reads : (setLanes A s).reads = s.reads := rfl
@[simp] theorem setLanes_tick : (setLanes A s).tick = s.tick := rfl

end Setlanes

/-! ## advance -/

section Advance
variable (s : State)

@[simp] theorem advance_lanes : (advance s).lanes = s.lanes := rfl
@[simp] theorem advance_buf : (advance s).buf = s.buf := rfl
@[simp] theorem advance_out : (advance s).out = s.out := rfl
@[simp] theorem advance_phase : (advance s).phase = s.phase := rfl
@[simp] theorem advance_outValid : (advance s).outValid = s.outValid := rfl
@[simp] theorem advance_err : (advance s).err = s.err := rfl
@[simp] theorem advance_errCode : (advance s).errCode = s.errCode := rfl
@[simp] theorem advance_errOp : (advance s).errOp = s.errOp := rfl
@[simp] theorem advance_doneIE : (advance s).doneIE = s.doneIE := rfl
@[simp] theorem advance_errIE : (advance s).errIE = s.errIE := rfl
@[simp] theorem advance_doneP : (advance s).doneP = s.doneP := rfl
@[simp] theorem advance_errP : (advance s).errP = s.errP := rfl
@[simp] theorem advance_inflight : (advance s).inflight = s.inflight := rfl
@[simp] theorem advance_rnd : (advance s).rnd = if permuting s then Config.roundAt s.tick else s.rnd := rfl
@[simp] theorem advance_latLeft : (advance s).latLeft = s.latLeft - 1 := rfl
@[simp] theorem advance_latDraws : (advance s).latDraws = s.latDraws := rfl
@[simp] theorem advance_host : (advance s).host = s.host := rfl
@[simp] theorem advance_base : (advance s).base = s.base := rfl
@[simp] theorem advance_secondHost : (advance s).secondHost = s.secondHost := rfl
@[simp] theorem advance_resetPin : (advance s).resetPin = s.resetPin.tail := rfl
@[simp] theorem advance_reads : (advance s).reads = s.reads := rfl
@[simp] theorem advance_tick : (advance s).tick = s.tick + 1 := rfl

end Advance

/-! ## writeIntEn -/

section Writeinten
variable (w : Word) (s : State)

@[simp] theorem writeIntEn_lanes : (writeIntEn w s).lanes = s.lanes := rfl
@[simp] theorem writeIntEn_buf : (writeIntEn w s).buf = s.buf := rfl
@[simp] theorem writeIntEn_out : (writeIntEn w s).out = s.out := rfl
@[simp] theorem writeIntEn_phase : (writeIntEn w s).phase = s.phase := rfl
@[simp] theorem writeIntEn_outValid : (writeIntEn w s).outValid = s.outValid := rfl
@[simp] theorem writeIntEn_err : (writeIntEn w s).err = s.err := rfl
@[simp] theorem writeIntEn_errCode : (writeIntEn w s).errCode = s.errCode := rfl
@[simp] theorem writeIntEn_errOp : (writeIntEn w s).errOp = s.errOp := rfl
@[simp] theorem writeIntEn_doneIE : (writeIntEn w s).doneIE = w.getLsbD 0 := rfl
@[simp] theorem writeIntEn_errIE : (writeIntEn w s).errIE = w.getLsbD 1 := rfl
@[simp] theorem writeIntEn_doneP : (writeIntEn w s).doneP = s.doneP := rfl
@[simp] theorem writeIntEn_errP : (writeIntEn w s).errP = s.errP := rfl
@[simp] theorem writeIntEn_inflight : (writeIntEn w s).inflight = s.inflight := rfl
@[simp] theorem writeIntEn_rnd : (writeIntEn w s).rnd = s.rnd := rfl
@[simp] theorem writeIntEn_latLeft : (writeIntEn w s).latLeft = s.latLeft := rfl
@[simp] theorem writeIntEn_latDraws : (writeIntEn w s).latDraws = s.latDraws := rfl
@[simp] theorem writeIntEn_host : (writeIntEn w s).host = s.host := rfl
@[simp] theorem writeIntEn_base : (writeIntEn w s).base = s.base := rfl
@[simp] theorem writeIntEn_secondHost : (writeIntEn w s).secondHost = s.secondHost := rfl
@[simp] theorem writeIntEn_resetPin : (writeIntEn w s).resetPin = s.resetPin := rfl
@[simp] theorem writeIntEn_reads : (writeIntEn w s).reads = s.reads := rfl
@[simp] theorem writeIntEn_tick : (writeIntEn w s).tick = s.tick := rfl

end Writeinten

/-! ## clearIntStat -/

section Clearintstat
variable (w : Word) (s : State)

@[simp] theorem clearIntStat_lanes : (clearIntStat w s).lanes = s.lanes := rfl
@[simp] theorem clearIntStat_buf : (clearIntStat w s).buf = s.buf := rfl
@[simp] theorem clearIntStat_out : (clearIntStat w s).out = s.out := rfl
@[simp] theorem clearIntStat_phase : (clearIntStat w s).phase = s.phase := rfl
@[simp] theorem clearIntStat_outValid : (clearIntStat w s).outValid = s.outValid := rfl
@[simp] theorem clearIntStat_err : (clearIntStat w s).err = s.err := rfl
@[simp] theorem clearIntStat_errCode : (clearIntStat w s).errCode = s.errCode := rfl
@[simp] theorem clearIntStat_errOp : (clearIntStat w s).errOp = s.errOp := rfl
@[simp] theorem clearIntStat_doneIE : (clearIntStat w s).doneIE = s.doneIE := rfl
@[simp] theorem clearIntStat_errIE : (clearIntStat w s).errIE = s.errIE := rfl
@[simp] theorem clearIntStat_doneP : (clearIntStat w s).doneP = (s.doneP && !w.getLsbD 0) := rfl
@[simp] theorem clearIntStat_errP : (clearIntStat w s).errP = (s.errP && !w.getLsbD 1) := rfl
@[simp] theorem clearIntStat_inflight : (clearIntStat w s).inflight = s.inflight := rfl
@[simp] theorem clearIntStat_rnd : (clearIntStat w s).rnd = s.rnd := rfl
@[simp] theorem clearIntStat_latLeft : (clearIntStat w s).latLeft = s.latLeft := rfl
@[simp] theorem clearIntStat_latDraws : (clearIntStat w s).latDraws = s.latDraws := rfl
@[simp] theorem clearIntStat_host : (clearIntStat w s).host = s.host := rfl
@[simp] theorem clearIntStat_base : (clearIntStat w s).base = s.base := rfl
@[simp] theorem clearIntStat_secondHost : (clearIntStat w s).secondHost = s.secondHost := rfl
@[simp] theorem clearIntStat_resetPin : (clearIntStat w s).resetPin = s.resetPin := rfl
@[simp] theorem clearIntStat_reads : (clearIntStat w s).reads = s.reads := rfl
@[simp] theorem clearIntStat_tick : (clearIntStat w s).tick = s.tick := rfl

end Clearintstat

/-! ## writeBufWord -/

section Writebufword
variable (j : Fin 34) (w : Word) (s : State)

@[simp] theorem writeBufWord_lanes : (writeBufWord j w s).lanes = s.lanes := rfl
@[simp] theorem writeBufWord_buf : (writeBufWord j w s).buf = setBufferWord s.buf j w := rfl
@[simp] theorem writeBufWord_out : (writeBufWord j w s).out = s.out := rfl
@[simp] theorem writeBufWord_phase : (writeBufWord j w s).phase = s.phase := rfl
@[simp] theorem writeBufWord_outValid : (writeBufWord j w s).outValid = s.outValid := rfl
@[simp] theorem writeBufWord_err : (writeBufWord j w s).err = s.err := rfl
@[simp] theorem writeBufWord_errCode : (writeBufWord j w s).errCode = s.errCode := rfl
@[simp] theorem writeBufWord_errOp : (writeBufWord j w s).errOp = s.errOp := rfl
@[simp] theorem writeBufWord_doneIE : (writeBufWord j w s).doneIE = s.doneIE := rfl
@[simp] theorem writeBufWord_errIE : (writeBufWord j w s).errIE = s.errIE := rfl
@[simp] theorem writeBufWord_doneP : (writeBufWord j w s).doneP = s.doneP := rfl
@[simp] theorem writeBufWord_errP : (writeBufWord j w s).errP = s.errP := rfl
@[simp] theorem writeBufWord_inflight : (writeBufWord j w s).inflight = s.inflight := rfl
@[simp] theorem writeBufWord_rnd : (writeBufWord j w s).rnd = s.rnd := rfl
@[simp] theorem writeBufWord_latLeft : (writeBufWord j w s).latLeft = s.latLeft := rfl
@[simp] theorem writeBufWord_latDraws : (writeBufWord j w s).latDraws = s.latDraws := rfl
@[simp] theorem writeBufWord_host : (writeBufWord j w s).host = s.host := rfl
@[simp] theorem writeBufWord_base : (writeBufWord j w s).base = s.base := rfl
@[simp] theorem writeBufWord_secondHost : (writeBufWord j w s).secondHost = s.secondHost := rfl
@[simp] theorem writeBufWord_resetPin : (writeBufWord j w s).resetPin = s.resetPin := rfl
@[simp] theorem writeBufWord_reads : (writeBufWord j w s).reads = s.reads := rfl
@[simp] theorem writeBufWord_tick : (writeBufWord j w s).tick = s.tick := rfl

end Writebufword

/-! ## popHost -/

section Pophost
variable (s : State)

@[simp] theorem popHost_lanes : (popHost s).lanes = s.lanes := rfl
@[simp] theorem popHost_buf : (popHost s).buf = s.buf := rfl
@[simp] theorem popHost_out : (popHost s).out = s.out := rfl
@[simp] theorem popHost_phase : (popHost s).phase = s.phase := rfl
@[simp] theorem popHost_outValid : (popHost s).outValid = s.outValid := rfl
@[simp] theorem popHost_err : (popHost s).err = s.err := rfl
@[simp] theorem popHost_errCode : (popHost s).errCode = s.errCode := rfl
@[simp] theorem popHost_errOp : (popHost s).errOp = s.errOp := rfl
@[simp] theorem popHost_doneIE : (popHost s).doneIE = s.doneIE := rfl
@[simp] theorem popHost_errIE : (popHost s).errIE = s.errIE := rfl
@[simp] theorem popHost_doneP : (popHost s).doneP = s.doneP := rfl
@[simp] theorem popHost_errP : (popHost s).errP = s.errP := rfl
@[simp] theorem popHost_inflight : (popHost s).inflight = s.inflight := rfl
@[simp] theorem popHost_rnd : (popHost s).rnd = s.rnd := rfl
@[simp] theorem popHost_latLeft : (popHost s).latLeft = s.latLeft := rfl
@[simp] theorem popHost_latDraws : (popHost s).latDraws = s.latDraws := rfl
@[simp] theorem popHost_host : (popHost s).host = s.host.tail := rfl
@[simp] theorem popHost_base : (popHost s).base = s.base := rfl
@[simp] theorem popHost_secondHost : (popHost s).secondHost = s.secondHost := rfl
@[simp] theorem popHost_resetPin : (popHost s).resetPin = s.resetPin := rfl
@[simp] theorem popHost_reads : (popHost s).reads = s.reads := rfl
@[simp] theorem popHost_tick : (popHost s).tick = s.tick := rfl

end Pophost

/-! ## logRead -/

section Logread
variable (v : Word) (s : State)

@[simp] theorem logRead_lanes : (logRead v s).lanes = s.lanes := rfl
@[simp] theorem logRead_buf : (logRead v s).buf = s.buf := rfl
@[simp] theorem logRead_out : (logRead v s).out = s.out := rfl
@[simp] theorem logRead_phase : (logRead v s).phase = s.phase := rfl
@[simp] theorem logRead_outValid : (logRead v s).outValid = s.outValid := rfl
@[simp] theorem logRead_err : (logRead v s).err = s.err := rfl
@[simp] theorem logRead_errCode : (logRead v s).errCode = s.errCode := rfl
@[simp] theorem logRead_errOp : (logRead v s).errOp = s.errOp := rfl
@[simp] theorem logRead_doneIE : (logRead v s).doneIE = s.doneIE := rfl
@[simp] theorem logRead_errIE : (logRead v s).errIE = s.errIE := rfl
@[simp] theorem logRead_doneP : (logRead v s).doneP = s.doneP := rfl
@[simp] theorem logRead_errP : (logRead v s).errP = s.errP := rfl
@[simp] theorem logRead_inflight : (logRead v s).inflight = s.inflight := rfl
@[simp] theorem logRead_rnd : (logRead v s).rnd = s.rnd := rfl
@[simp] theorem logRead_latLeft : (logRead v s).latLeft = s.latLeft := rfl
@[simp] theorem logRead_latDraws : (logRead v s).latDraws = s.latDraws := rfl
@[simp] theorem logRead_host : (logRead v s).host = s.host := rfl
@[simp] theorem logRead_base : (logRead v s).base = s.base := rfl
@[simp] theorem logRead_secondHost : (logRead v s).secondHost = s.secondHost := rfl
@[simp] theorem logRead_resetPin : (logRead v s).resetPin = s.resetPin := rfl
@[simp] theorem logRead_reads : (logRead v s).reads = s.reads ++ [v] := rfl
@[simp] theorem logRead_tick : (logRead v s).tick = s.tick := rfl

end Logread

/-! ## xorRateEffect -/

section Xorrateeffect
variable (o c : Nat) (b : Block) (s : State)

@[simp] theorem xorRateEffect_lanes : (xorRateEffect o c b s).lanes = xorRate s.lanes b o c := rfl
@[simp] theorem xorRateEffect_buf : (xorRateEffect o c b s).buf = s.buf := rfl
@[simp] theorem xorRateEffect_out : (xorRateEffect o c b s).out = s.out := rfl
@[simp] theorem xorRateEffect_phase : (xorRateEffect o c b s).phase = s.phase := rfl
@[simp] theorem xorRateEffect_outValid : (xorRateEffect o c b s).outValid = s.outValid := rfl
@[simp] theorem xorRateEffect_err : (xorRateEffect o c b s).err = s.err := rfl
@[simp] theorem xorRateEffect_errCode : (xorRateEffect o c b s).errCode = s.errCode := rfl
@[simp] theorem xorRateEffect_errOp : (xorRateEffect o c b s).errOp = s.errOp := rfl
@[simp] theorem xorRateEffect_doneIE : (xorRateEffect o c b s).doneIE = s.doneIE := rfl
@[simp] theorem xorRateEffect_errIE : (xorRateEffect o c b s).errIE = s.errIE := rfl
@[simp] theorem xorRateEffect_doneP : (xorRateEffect o c b s).doneP = s.doneP := rfl
@[simp] theorem xorRateEffect_errP : (xorRateEffect o c b s).errP = s.errP := rfl
@[simp] theorem xorRateEffect_inflight : (xorRateEffect o c b s).inflight = s.inflight := rfl
@[simp] theorem xorRateEffect_rnd : (xorRateEffect o c b s).rnd = s.rnd := rfl
@[simp] theorem xorRateEffect_latLeft : (xorRateEffect o c b s).latLeft = s.latLeft := rfl
@[simp] theorem xorRateEffect_latDraws : (xorRateEffect o c b s).latDraws = s.latDraws := rfl
@[simp] theorem xorRateEffect_host : (xorRateEffect o c b s).host = s.host := rfl
@[simp] theorem xorRateEffect_base : (xorRateEffect o c b s).base = s.base := rfl
@[simp] theorem xorRateEffect_secondHost : (xorRateEffect o c b s).secondHost = s.secondHost := rfl
@[simp] theorem xorRateEffect_resetPin : (xorRateEffect o c b s).resetPin = s.resetPin := rfl
@[simp] theorem xorRateEffect_reads : (xorRateEffect o c b s).reads = s.reads := rfl
@[simp] theorem xorRateEffect_tick : (xorRateEffect o c b s).tick = s.tick := rfl

end Xorrateeffect

/-! ## permuteEffect -/

section Permuteeffect
variable (s : State)

@[simp] theorem permuteEffect_lanes : (permuteEffect s).lanes = keccakF s.lanes := rfl
@[simp] theorem permuteEffect_buf : (permuteEffect s).buf = s.buf := rfl
@[simp] theorem permuteEffect_out : (permuteEffect s).out = s.out := rfl
@[simp] theorem permuteEffect_phase : (permuteEffect s).phase = s.phase := rfl
@[simp] theorem permuteEffect_outValid : (permuteEffect s).outValid = s.outValid := rfl
@[simp] theorem permuteEffect_err : (permuteEffect s).err = s.err := rfl
@[simp] theorem permuteEffect_errCode : (permuteEffect s).errCode = s.errCode := rfl
@[simp] theorem permuteEffect_errOp : (permuteEffect s).errOp = s.errOp := rfl
@[simp] theorem permuteEffect_doneIE : (permuteEffect s).doneIE = s.doneIE := rfl
@[simp] theorem permuteEffect_errIE : (permuteEffect s).errIE = s.errIE := rfl
@[simp] theorem permuteEffect_doneP : (permuteEffect s).doneP = s.doneP := rfl
@[simp] theorem permuteEffect_errP : (permuteEffect s).errP = s.errP := rfl
@[simp] theorem permuteEffect_inflight : (permuteEffect s).inflight = s.inflight := rfl
@[simp] theorem permuteEffect_rnd : (permuteEffect s).rnd = s.rnd := rfl
@[simp] theorem permuteEffect_latLeft : (permuteEffect s).latLeft = s.latLeft := rfl
@[simp] theorem permuteEffect_latDraws : (permuteEffect s).latDraws = s.latDraws := rfl
@[simp] theorem permuteEffect_host : (permuteEffect s).host = s.host := rfl
@[simp] theorem permuteEffect_base : (permuteEffect s).base = s.base := rfl
@[simp] theorem permuteEffect_secondHost : (permuteEffect s).secondHost = s.secondHost := rfl
@[simp] theorem permuteEffect_resetPin : (permuteEffect s).resetPin = s.resetPin := rfl
@[simp] theorem permuteEffect_reads : (permuteEffect s).reads = s.reads := rfl
@[simp] theorem permuteEffect_tick : (permuteEffect s).tick = s.tick := rfl

end Permuteeffect

/-! ## absorbEffect -/

section Absorbeffect
variable (b : Block) (s : State)

@[simp] theorem absorbEffect_lanes : (absorbEffect b s).lanes = absorbBlock s.lanes b := rfl
@[simp] theorem absorbEffect_buf : (absorbEffect b s).buf = s.buf := rfl
@[simp] theorem absorbEffect_out : (absorbEffect b s).out = s.out := rfl
@[simp] theorem absorbEffect_phase : (absorbEffect b s).phase = s.phase := rfl
@[simp] theorem absorbEffect_outValid : (absorbEffect b s).outValid = s.outValid := rfl
@[simp] theorem absorbEffect_err : (absorbEffect b s).err = s.err := rfl
@[simp] theorem absorbEffect_errCode : (absorbEffect b s).errCode = s.errCode := rfl
@[simp] theorem absorbEffect_errOp : (absorbEffect b s).errOp = s.errOp := rfl
@[simp] theorem absorbEffect_doneIE : (absorbEffect b s).doneIE = s.doneIE := rfl
@[simp] theorem absorbEffect_errIE : (absorbEffect b s).errIE = s.errIE := rfl
@[simp] theorem absorbEffect_doneP : (absorbEffect b s).doneP = s.doneP := rfl
@[simp] theorem absorbEffect_errP : (absorbEffect b s).errP = s.errP := rfl
@[simp] theorem absorbEffect_inflight : (absorbEffect b s).inflight = s.inflight := rfl
@[simp] theorem absorbEffect_rnd : (absorbEffect b s).rnd = s.rnd := rfl
@[simp] theorem absorbEffect_latLeft : (absorbEffect b s).latLeft = s.latLeft := rfl
@[simp] theorem absorbEffect_latDraws : (absorbEffect b s).latDraws = s.latDraws := rfl
@[simp] theorem absorbEffect_host : (absorbEffect b s).host = s.host := rfl
@[simp] theorem absorbEffect_base : (absorbEffect b s).base = s.base := rfl
@[simp] theorem absorbEffect_secondHost : (absorbEffect b s).secondHost = s.secondHost := rfl
@[simp] theorem absorbEffect_resetPin : (absorbEffect b s).resetPin = s.resetPin := rfl
@[simp] theorem absorbEffect_reads : (absorbEffect b s).reads = s.reads := rfl
@[simp] theorem absorbEffect_tick : (absorbEffect b s).tick = s.tick := rfl

end Absorbeffect

/-! ## absorbFinalEffect -/

section Absorbfinaleffect
variable (n : Nat) (b : Block) (s : State)

@[simp] theorem absorbFinalEffect_lanes : (absorbFinalEffect n b s).lanes = absorbBlock s.lanes (pad b n) := rfl
@[simp] theorem absorbFinalEffect_buf : (absorbFinalEffect n b s).buf = s.buf := rfl
@[simp] theorem absorbFinalEffect_out : (absorbFinalEffect n b s).out = s.out := rfl
@[simp] theorem absorbFinalEffect_phase : (absorbFinalEffect n b s).phase = .squeeze := rfl
@[simp] theorem absorbFinalEffect_outValid : (absorbFinalEffect n b s).outValid = s.outValid := rfl
@[simp] theorem absorbFinalEffect_err : (absorbFinalEffect n b s).err = s.err := rfl
@[simp] theorem absorbFinalEffect_errCode : (absorbFinalEffect n b s).errCode = s.errCode := rfl
@[simp] theorem absorbFinalEffect_errOp : (absorbFinalEffect n b s).errOp = s.errOp := rfl
@[simp] theorem absorbFinalEffect_doneIE : (absorbFinalEffect n b s).doneIE = s.doneIE := rfl
@[simp] theorem absorbFinalEffect_errIE : (absorbFinalEffect n b s).errIE = s.errIE := rfl
@[simp] theorem absorbFinalEffect_doneP : (absorbFinalEffect n b s).doneP = s.doneP := rfl
@[simp] theorem absorbFinalEffect_errP : (absorbFinalEffect n b s).errP = s.errP := rfl
@[simp] theorem absorbFinalEffect_inflight : (absorbFinalEffect n b s).inflight = s.inflight := rfl
@[simp] theorem absorbFinalEffect_rnd : (absorbFinalEffect n b s).rnd = s.rnd := rfl
@[simp] theorem absorbFinalEffect_latLeft : (absorbFinalEffect n b s).latLeft = s.latLeft := rfl
@[simp] theorem absorbFinalEffect_latDraws : (absorbFinalEffect n b s).latDraws = s.latDraws := rfl
@[simp] theorem absorbFinalEffect_host : (absorbFinalEffect n b s).host = s.host := rfl
@[simp] theorem absorbFinalEffect_base : (absorbFinalEffect n b s).base = s.base := rfl
@[simp] theorem absorbFinalEffect_secondHost : (absorbFinalEffect n b s).secondHost = s.secondHost := rfl
@[simp] theorem absorbFinalEffect_resetPin : (absorbFinalEffect n b s).resetPin = s.resetPin := rfl
@[simp] theorem absorbFinalEffect_reads : (absorbFinalEffect n b s).reads = s.reads := rfl
@[simp] theorem absorbFinalEffect_tick : (absorbFinalEffect n b s).tick = s.tick := rfl

end Absorbfinaleffect

/-! ## squeezeEffect -/

section Squeezeeffect
variable (c : Nat) (s : State)

@[simp] theorem squeezeEffect_lanes : (squeezeEffect c s).lanes = s.lanes := rfl
@[simp] theorem squeezeEffect_buf : (squeezeEffect c s).buf = s.buf := rfl
@[simp] theorem squeezeEffect_out : (squeezeEffect c s).out = squeezeOut s.lanes c := rfl
@[simp] theorem squeezeEffect_phase : (squeezeEffect c s).phase = s.phase := rfl
@[simp] theorem squeezeEffect_outValid : (squeezeEffect c s).outValid = true := rfl
@[simp] theorem squeezeEffect_err : (squeezeEffect c s).err = s.err := rfl
@[simp] theorem squeezeEffect_errCode : (squeezeEffect c s).errCode = s.errCode := rfl
@[simp] theorem squeezeEffect_errOp : (squeezeEffect c s).errOp = s.errOp := rfl
@[simp] theorem squeezeEffect_doneIE : (squeezeEffect c s).doneIE = s.doneIE := rfl
@[simp] theorem squeezeEffect_errIE : (squeezeEffect c s).errIE = s.errIE := rfl
@[simp] theorem squeezeEffect_doneP : (squeezeEffect c s).doneP = s.doneP := rfl
@[simp] theorem squeezeEffect_errP : (squeezeEffect c s).errP = s.errP := rfl
@[simp] theorem squeezeEffect_inflight : (squeezeEffect c s).inflight = s.inflight := rfl
@[simp] theorem squeezeEffect_rnd : (squeezeEffect c s).rnd = s.rnd := rfl
@[simp] theorem squeezeEffect_latLeft : (squeezeEffect c s).latLeft = s.latLeft := rfl
@[simp] theorem squeezeEffect_latDraws : (squeezeEffect c s).latDraws = s.latDraws := rfl
@[simp] theorem squeezeEffect_host : (squeezeEffect c s).host = s.host := rfl
@[simp] theorem squeezeEffect_base : (squeezeEffect c s).base = s.base := rfl
@[simp] theorem squeezeEffect_secondHost : (squeezeEffect c s).secondHost = s.secondHost := rfl
@[simp] theorem squeezeEffect_resetPin : (squeezeEffect c s).resetPin = s.resetPin := rfl
@[simp] theorem squeezeEffect_reads : (squeezeEffect c s).reads = s.reads := rfl
@[simp] theorem squeezeEffect_tick : (squeezeEffect c s).tick = s.tick := rfl

end Squeezeeffect

/-! ## initEffect -/

section Initeffect
variable (s : State)

@[simp] theorem initEffect_lanes : (initEffect s).lanes = zeroLanes := rfl
@[simp] theorem initEffect_buf : (initEffect s).buf = s.buf := rfl
@[simp] theorem initEffect_out : (initEffect s).out = zeroBlock := rfl
@[simp] theorem initEffect_phase : (initEffect s).phase = .absorb := rfl
@[simp] theorem initEffect_outValid : (initEffect s).outValid = false := rfl
@[simp] theorem initEffect_err : (initEffect s).err = false := rfl
@[simp] theorem initEffect_errCode : (initEffect s).errCode = 0 := rfl
@[simp] theorem initEffect_errOp : (initEffect s).errOp = 0 := rfl
@[simp] theorem initEffect_doneIE : (initEffect s).doneIE = s.doneIE := rfl
@[simp] theorem initEffect_errIE : (initEffect s).errIE = s.errIE := rfl
@[simp] theorem initEffect_doneP : (initEffect s).doneP = s.doneP := rfl
@[simp] theorem initEffect_errP : (initEffect s).errP = s.errP := rfl
@[simp] theorem initEffect_inflight : (initEffect s).inflight = s.inflight := rfl
@[simp] theorem initEffect_rnd : (initEffect s).rnd = s.rnd := rfl
@[simp] theorem initEffect_latLeft : (initEffect s).latLeft = s.latLeft := rfl
@[simp] theorem initEffect_latDraws : (initEffect s).latDraws = s.latDraws := rfl
@[simp] theorem initEffect_host : (initEffect s).host = s.host := rfl
@[simp] theorem initEffect_base : (initEffect s).base = s.base := rfl
@[simp] theorem initEffect_secondHost : (initEffect s).secondHost = s.secondHost := rfl
@[simp] theorem initEffect_resetPin : (initEffect s).resetPin = s.resetPin := rfl
@[simp] theorem initEffect_reads : (initEffect s).reads = s.reads := rfl
@[simp] theorem initEffect_tick : (initEffect s).tick = s.tick := rfl

end Initeffect

/-! ## applyReset -/

section Applyreset
variable (s : State)

@[simp] theorem applyReset_lanes : (applyReset s).lanes = zeroLanes := rfl
@[simp] theorem applyReset_buf : (applyReset s).buf = zeroBlock := rfl
@[simp] theorem applyReset_out : (applyReset s).out = zeroBlock := rfl
@[simp] theorem applyReset_phase : (applyReset s).phase = .idle := rfl
@[simp] theorem applyReset_outValid : (applyReset s).outValid = false := rfl
@[simp] theorem applyReset_err : (applyReset s).err = false := rfl
@[simp] theorem applyReset_errCode : (applyReset s).errCode = 0 := rfl
@[simp] theorem applyReset_errOp : (applyReset s).errOp = 0 := rfl
@[simp] theorem applyReset_doneIE : (applyReset s).doneIE = false := rfl
@[simp] theorem applyReset_errIE : (applyReset s).errIE = false := rfl
@[simp] theorem applyReset_doneP : (applyReset s).doneP = false := rfl
@[simp] theorem applyReset_errP : (applyReset s).errP = false := rfl
@[simp] theorem applyReset_inflight : (applyReset s).inflight = none := rfl
@[simp] theorem applyReset_rnd : (applyReset s).rnd = 0 := rfl
@[simp] theorem applyReset_latLeft : (applyReset s).latLeft = 0 := rfl
@[simp] theorem applyReset_latDraws : (applyReset s).latDraws = s.latDraws := rfl
@[simp] theorem applyReset_host : (applyReset s).host = s.host := rfl
@[simp] theorem applyReset_base : (applyReset s).base = s.base := rfl
@[simp] theorem applyReset_secondHost : (applyReset s).secondHost = s.secondHost := rfl
@[simp] theorem applyReset_resetPin : (applyReset s).resetPin = s.resetPin.tail := rfl
@[simp] theorem applyReset_reads : (applyReset s).reads = s.reads := rfl
@[simp] theorem applyReset_tick : (applyReset s).tick = s.tick + 1 := rfl

end Applyreset

end Sys2Proof.Machine
end

