-- ==== Sys2Proof/Laws/Ops.lean ====
section
/-! SUPPORT. What each shared operation can do, said once: acceptance, the two steps of a command, the host's step and
the machine's step. Later proofs cite these lemmas and do not unfold the operations. -/

namespace Sys2Proof.Machine

/-! ## Acceptance of a decoded command -/

/-- Everything acceptance can do (R95, R104). -/
theorem acceptCommand_cases (i : Instr) (s : State) :
    acceptCommand i s = s ∨
    (locked s i.opcode = false ∧ legal s.phase i = false ∧ acceptCommand i s = recordError .badPhase i.opcode s) ∨
    (locked s i.opcode = false ∧ legal s.phase i = true ∧ inRange i = false ∧
      acceptCommand i s = recordError .badRange i.opcode s) ∨
    (locked s i.opcode = false ∧ legal s.phase i = true ∧ inRange i = true ∧ i ≠ .nop ∧
      acceptCommand i s = start i s) := by
  unfold acceptCommand
  split_ifs with h1 h2 h3 h4 <;> simp_all

theorem acceptCommand_starts {i : Instr} {s : State} (hl : locked s i.opcode = false) (hp : legal s.phase i = true)
    (hr : inRange i = true) (hn : i ≠ .nop) : acceptCommand i s = start i s := by
  simp [acceptCommand, hl, hp, hr, hn]

theorem acceptCommand_badPhase {i : Instr} {s : State} (hl : locked s i.opcode = false)
    (hp : legal s.phase i = false) : acceptCommand i s = recordError .badPhase i.opcode s := by
  simp [acceptCommand, hl, hp]

theorem acceptCommand_badRange {i : Instr} {s : State} (hl : locked s i.opcode = false)
    (hp : legal s.phase i = true) (hr : inRange i = false) :
    acceptCommand i s = recordError .badRange i.opcode s := by
  simp [acceptCommand, hl, hp, hr]

theorem acceptCommand_locked {i : Instr} {s : State} (hl : locked s i.opcode = true) : acceptCommand i s = s := by
  simp [acceptCommand, hl]

/-- R96: an accepted NOP changes nothing, whatever the phase and the errors. -/
@[simp] theorem acceptCommand_nop (s : State) : acceptCommand .nop s = s := by
  simp [acceptCommand, legal, inRange]

theorem locked_of_no_error {s : State} (h : s.err = false) (op : BitVec 4) : locked s op = false := by
  simp [locked, h]

/-! ## The two steps of a command -/

/-- R98: the effect of a command at its completion (NOP has none, R96). -/
def effectOf : Instr → Block → State → State
  | .nop => fun _ s => s
  | .init => fun _ s => initEffect s
  | .xorRate offset count => xorRateEffect offset count
  | .permute => fun _ s => permuteEffect s
  | .absorb => absorbEffect
  | .absorbFinal len => absorbFinalEffect len
  | .squeeze count => fun _ s => squeezeEffect count s

theorem runCommand_idle {s : State} (h : s.inflight = none) (i : Instr) (f : Block → State → State) :
    runCommand i f s = .next (acceptCommand i s) := by
  simp [runCommand, h]

theorem runCommand_inflight {s : State} {fl : InFlight} (h : s.inflight = some fl) {i : Instr}
    (hd : decode fl.cmd = .ok i) (f : Block → State → State) :
    runCommand i f s = .next (finish (f fl.snap s)) := by
  simp [runCommand, h, hd]

theorem runCommand_held {s : State} {fl : InFlight} (h : s.inflight = some fl) {i : Instr}
    (hd : decode fl.cmd ≠ .ok i) (f : Block → State → State) : runCommand i f s = .next s := by
  simp [runCommand, h, hd]

/-- R95: with no command in flight, a command's step is its acceptance. -/
theorem exec_idle {s : State} (h : s.inflight = none) (i : Instr) : exec i s = .next (acceptCommand i s) := by
  cases i <;>
    simp [exec, execNop, execInit, execXorRate, execPermute, execAbsorb, execAbsorbFinal, execSqueeze, runCommand, h]

/-- R98: the command in flight completes: its effect on the snapshot, then the bookkeeping. -/
theorem exec_inflight {s : State} {fl : InFlight} (h : s.inflight = some fl) {i : Instr}
    (hd : decode fl.cmd = .ok i) (hn : i ≠ .nop) : exec i s = .next (finish (effectOf i fl.snap s)) := by
  cases i <;> first
    | exact absurd rfl hn
    | simp [exec, execInit, execXorRate, execPermute, execAbsorb, execAbsorbFinal, execSqueeze,
        runCommand_inflight h hd, effectOf]

/-- R55: while another command is in flight, a presented one is held and changes nothing. -/
theorem exec_held {s : State} {fl : InFlight} (h : s.inflight = some fl) {i : Instr}
    (hd : decode fl.cmd ≠ .ok i) : exec i s = .next s := by
  cases i <;>
    simp [exec, execNop, execInit, execXorRate, execPermute, execAbsorb, execAbsorbFinal, execSqueeze,
      runCommand_held h hd, h]

theorem exec_nop (s : State) : exec .nop s = .next s := by
  unfold exec execNop
  cases h : s.inflight <;> simp

/-- Everything a command's step can do. -/
theorem exec_cases (i : Instr) (s : State) :
    (s.inflight = none ∧ exec i s = .next (acceptCommand i s)) ∨
    (∃ fl, s.inflight = some fl ∧ decode fl.cmd = .ok i ∧ i ≠ .nop ∧
      exec i s = .next (finish (effectOf i fl.snap s))) ∨
    (s.inflight.isSome ∧ exec i s = .next s) := by
  cases h : s.inflight with
  | none => exact .inl ⟨rfl, exec_idle h i⟩
  | some fl =>
    by_cases hn : i = .nop
    · subst hn
      exact .inr (.inr ⟨rfl, exec_nop s⟩)
    · by_cases hd : decode fl.cmd = .ok i
      · exact .inr (.inl ⟨fl, rfl, hd, hn, exec_inflight h hd hn⟩)
      · exact .inr (.inr ⟨rfl, exec_held h hd⟩)

/-- No command faults or is refused: a command error is a next state (R17). -/
theorem exec_next (i : Instr) (s : State) : ∃ t, exec i s = .next t := by
  obtain ⟨-, h⟩ | ⟨fl, -, -, -, h⟩ | ⟨-, h⟩ := exec_cases i s <;> exact ⟨_, h⟩

/-! ## Acceptance of a word -/

/-- Everything `Accept(w)` can do (R95). -/
theorem acceptWord_cases (w : Word) {s : State} (h : s.inflight = none) :
    (locked s (opField w) = true ∧ acceptWord w s = .next s) ∨
    (locked s (opField w) = false ∧ ∃ e, decode w = .error e ∧
      acceptWord w s = .next (recordError e (opField w) s)) ∨
    (locked s (opField w) = false ∧ ∃ i, decode w = .ok i ∧ acceptWord w s = .next (acceptCommand i s)) := by
  unfold acceptWord
  cases hl : locked s (opField w) with
  | true => simp
  | false =>
    cases hd : decode w with
    | error e => simp
    | ok i => simp [exec_idle h]

/-- R60, R67: the opcode of a decoded command is the word's. -/
theorem decode_opcode {w : Word} {i : Instr} (h : decode w = .ok i) : i.opcode = opField w := by
  unfold decode at h
  split at h
  · simp at h
  · rename_i j hj
    split_ifs at h with h1 h2 h3
    simp only [Except.ok.injEq] at h
    subst h
    unfold commandOf at hj
    split_ifs at hj with h1 <;> simp only [Option.some.injEq] at hj <;> subst hj <;> simp_all [Instr.opcode]

/-- The next states of `Accept(w)`: the same state, an error recorded, or the command in flight. -/
theorem acceptWord_next {w : Word} {s t : State} (hn : s.inflight = none) (h : acceptWord w s = .next t) :
    t = s ∨ (∃ e, locked s (opField w) = false ∧ t = recordError e (opField w) s) ∨
    (∃ i, locked s (opField w) = false ∧ decode w = .ok i ∧ legal s.phase i = true ∧ inRange i = true ∧ i ≠ .nop ∧
      t = start i s) := by
  obtain ⟨-, h1⟩ | ⟨hl, e, -, h1⟩ | ⟨hl, i, hd, h1⟩ := acceptWord_cases w hn <;> rw [h1] at h <;>
    simp only [Host.Outcome.next.injEq] at h
  · exact .inl h.symm
  · exact .inr (.inl ⟨e, hl, h.symm⟩)
  · have ho := decode_opcode hd
    obtain h2 | ⟨-, -, h2⟩ | ⟨-, -, -, h2⟩ | ⟨-, h4, h5, h6, h2⟩ := acceptCommand_cases i s <;> rw [h2] at h
    · exact .inl h.symm
    · exact .inr (.inl ⟨_, hl, by rw [← ho]; exact h.symm⟩)
    · exact .inr (.inl ⟨_, hl, by rw [← ho]; exact h.symm⟩)
    · exact .inr (.inr ⟨i, hl, hd, h4, h5, h6, h.symm⟩)

/-- The next state of the command in flight: its effect and the bookkeeping (NOP, which is never in flight, has none). -/
theorem exec_completes {s t : State} {fl : InFlight} {i : Instr} (hi : s.inflight = some fl)
    (hd : decode fl.cmd = .ok i) (h : exec i s = .next t) :
    (i = .nop ∧ t = s) ∨ (i ≠ .nop ∧ t = finish (effectOf i fl.snap s)) := by
  by_cases hn : i = .nop
  · subst hn
    rw [exec_nop] at h
    exact .inl ⟨rfl, by simpa using h.symm⟩
  · rw [exec_inflight hi hd hn] at h
    exact .inr ⟨hn, by simpa using h.symm⟩

/-! ## The host port -/

/-- R47: a write never completes a bus access with an error response and an effect: it faults, or it is performed. -/
theorem memWrite_cases (off : Offset) (size : Nat) (w : Word) (s : State) :
    (∃ f, memWrite off size w s = .fault f) ∨
    (checkAccess off size = .ok .cmd ∧ memWrite off size w s = acceptWord w s) ∨
    memWrite off size w s = .next (writeIntEn w s) ∨
    memWrite off size w s = .next (clearIntStat w s) ∨
    ∃ j, memWrite off size w s = .next (writeBufWord j w s) := by
  unfold memWrite
  cases h : checkAccess off size with
  | error f => exact .inl ⟨f, rfl⟩
  | ok t =>
    cases t <;> first
      | exact .inl ⟨_, rfl⟩
      | exact .inr (.inl ⟨rfl, rfl⟩)
      | exact .inr (.inr (.inl rfl))
      | exact .inr (.inr (.inr (.inl rfl)))
      | exact .inr (.inr (.inr (.inr ⟨_, rfl⟩)))

/-- R43: an address of the block is BASE plus its offset. -/
theorem offsetOf_eq_some {base addr : Nat} {off : Offset} : offsetOf base addr = some off ↔ addr = base + off.toNat := by
  have := off.isLt
  constructor
  · intro h
    unfold offsetOf at h
    split_ifs at h with hb
    obtain rfl := Option.some.inj h
    rw [BitVec.toNat_ofNat, Nat.mod_eq_of_lt (by omega)]
    omega
  · rintro rfl
    rw [offsetOf, if_pos (by omega)]
    simp

@[simp] theorem offsetOf_base_add (base : Nat) (off : Offset) : offsetOf base (base + off.toNat) = some off :=
  offsetOf_eq_some.2 rfl

/-- R43: the offset of BASE plus a number below 0x1000. -/
theorem offsetOf_base_add_of_lt (base : Nat) {a : Nat} (h : a < 0x1000) :
    offsetOf base (base + a) = some (BitVec.ofNat 12 a) := by
  rw [offsetOf_eq_some, BitVec.toNat_ofNat, Nat.mod_eq_of_lt (by omega)]

/-- R43: an address outside the block's 0x1000 bytes has no offset. -/
theorem offsetOf_eq_none {base addr : Nat} : offsetOf base addr = none ↔ addr < base ∨ base + 0x1000 ≤ addr := by
  unfold offsetOf
  split_ifs <;> simp <;> omega

/-- R15, R43: the host's step at a read of an offset of this block. -/
theorem hostStep_read {s : State} {off : Offset} {size : Nat} {rest : List HostStmt}
    (h : s.host = .read (s.base + off.toNat) size :: rest) :
    hostStep s = match memRead s off size with
      | .error f => .fault f
      | .ok v => .next (logRead v (popHost s)) := by
  cases hm : memRead s off size <;> simp [hostStep, h, hm]

/-- R15, R43, R55: the host's step at a write of an offset of this block. -/
theorem hostStep_write {s : State} {off : Offset} {size : Nat} {w : Word} {rest : List HostStmt}
    (h : s.host = .write (s.base + off.toNat) size w :: rest) :
    hostStep s = if heldWrite s off size then .next s else memWrite off size w (popHost s) := by
  simp [hostStep, h]

/-- Everything a host step can do. -/
theorem hostStep_cases (s : State) :
    hostStep s = .next s ∨
    ((∃ f, hostStep s = .fault f) ∨ hostStep s = .refused .outsideBlock) ∨
    (∃ off size rest v, s.host = .read (s.base + off.toNat) size :: rest ∧ memRead s off size = .ok v ∧
      hostStep s = .next (logRead v (popHost s))) ∨
    (∃ off size w rest, s.host = .write (s.base + off.toNat) size w :: rest ∧ heldWrite s off size = false ∧
      hostStep s = memWrite off size w (popHost s)) ∨
    ((∃ rest, s.host = .wait :: rest ∧ busy s = false) ∨ (∃ rest, s.host = .waitIrq :: rest ∧ irq s = true)) ∧
      hostStep s = .next (popHost s) := by
  cases hh : s.host with
  | nil => exact .inl (by simp [hostStep, hh])
  | cons a rest =>
    cases a with
    | read addr size =>
      cases ho : offsetOf s.base addr with
      | none => exact .inr (.inl (.inr (by simp [hostStep, hh, ho])))
      | some off =>
        obtain rfl := offsetOf_eq_some.1 ho
        cases hr : memRead s off size with
        | error f => exact .inr (.inl (.inl ⟨f, by simp [hostStep_read hh, hr]⟩))
        | ok v => exact .inr (.inr (.inl ⟨off, size, rest, v, rfl, hr, by simp [hostStep_read hh, hr]⟩))
    | write addr size w =>
      cases ho : offsetOf s.base addr with
      | none => exact .inr (.inl (.inr (by simp [hostStep, hh, ho])))
      | some off =>
        obtain rfl := offsetOf_eq_some.1 ho
        cases hw : heldWrite s off size with
        | true => exact .inl (by simp [hostStep_write hh, hw])
        | false => exact .inr (.inr (.inr (.inl ⟨off, size, w, rest, rfl, hw, by simp [hostStep_write hh, hw]⟩)))
    | wait =>
      cases hb : busy s with
      | true => exact .inl (by simp [hostStep, hh, hb])
      | false => exact .inr (.inr (.inr (.inr ⟨.inl ⟨rest, rfl, rfl⟩, by simp [hostStep, hh, hb]⟩)))
    | waitIrq =>
      cases hb : irq s with
      | false => exact .inl (by simp [hostStep, hh, hb])
      | true => exact .inr (.inr (.inr (.inr ⟨.inr ⟨rest, rfl, rfl⟩, by simp [hostStep, hh, hb]⟩)))

theorem complete_eq {s : State} {fl : InFlight} (h : s.inflight = some fl) {i : Instr}
    (hd : decode fl.cmd = .ok i) : complete s = exec i s := by
  simp [complete, h, hd]

theorem complete_cases {s t : State} (h : complete s = .next t) :
    (s.inflight = none ∧ t = s) ∨ ∃ fl i, s.inflight = some fl ∧ decode fl.cmd = .ok i ∧ exec i s = .next t := by
  cases hi : s.inflight with
  | none => simp [complete, hi] at h; exact .inl ⟨rfl, h.symm⟩
  | some fl =>
    cases hd : decode fl.cmd with
    | error e => simp [complete, hi, hd] at h
    | ok i => exact .inr ⟨fl, i, rfl, hd, by simpa [complete, hi, hd] using h⟩

/-- R44: the one access that presents a command. -/
theorem checkAccess_cmd {off : Offset} {size : Nat} (h : checkAccess off size = .ok .cmd) : off = 0x008 ∧ size = 4 := by
  unfold checkAccess at h
  split at h
  · simp at h
  · rename_i h4
    split at h
    · simp at h
    · have ht : targetOf off = some .cmd := by
        cases ht : targetOf off with
        | none => simp [ht] at h
        | some u => simpa [ht] using h
      unfold targetOf at ht
      simp only at ht
      have h8 : off.toNat = 8 := by
        split_ifs at ht <;> first
          | assumption
          | simp at ht
      exact ⟨BitVec.eq_of_toNat_eq (by simpa using h8), by simpa using h4⟩

@[simp] theorem checkAccess_cmdOffset : checkAccess 0x008 4 = .ok .cmd := by decide

/-! ## The machine's step -/

/-- Everything one step can do (R9, R10, R17). -/
theorem step_cases (s : State) :
    (s.secondHost ≠ [] ∧ step s = .refused .twoHosts) ∨
    (s.secondHost = [] ∧ resetDue s = true ∧ step s = .next (applyReset s)) ∨
    (s.secondHost = [] ∧ resetDue s = false ∧ completionDue s = true ∧ step s = complete (advance s)) ∨
    (s.secondHost = [] ∧ resetDue s = false ∧ completionDue s = false ∧ step s = hostStep (advance s)) := by
  unfold step
  by_cases h1 : s.secondHost = [] <;> cases h2 : resetDue s <;> cases h3 : completionDue s <;> simp [h1]

/-- Everything a host step that has a next state can do: nothing, a read, a wait that ends, a register or BUF write, or
the acceptance of a command word with no command in flight. -/
theorem hostStep_next {s t : State} (h : hostStep s = .next t) :
    t = s ∨
    (∃ v, t = logRead v (popHost s)) ∨
    t = popHost s ∨
    (∃ w, t = writeIntEn w (popHost s)) ∨
    (∃ w, t = clearIntStat w (popHost s)) ∨
    (∃ j w, t = writeBufWord j w (popHost s)) ∨
    (∃ w rest, s.host = .write (s.base + 0x008) 4 w :: rest ∧ s.inflight = none ∧ acceptWord w (popHost s) = .next t) := by
  obtain h1 | (⟨f, h1⟩ | h1) | ⟨off, size, rest, v, -, -, h1⟩ | ⟨off, size, w, rest, hh, hw, h1⟩ | ⟨-, h1⟩ :=
    hostStep_cases s
  · rw [h1] at h; simp at h; exact .inl h.symm
  · rw [h1] at h; simp at h
  · rw [h1] at h; simp at h
  · rw [h1] at h; simp at h; exact .inr (.inl ⟨v, h.symm⟩)
  · rw [h1] at h
    obtain ⟨f, h2⟩ | ⟨hc, h2⟩ | h2 | h2 | ⟨j, h2⟩ := memWrite_cases off size w (popHost s) <;> rw [h2] at h
    · simp at h
    · have hn : s.inflight = none := by simpa [heldWrite, busy, hc] using hw
      obtain ⟨rfl, rfl⟩ := checkAccess_cmd hc
      exact .inr (.inr (.inr (.inr (.inr (.inr ⟨w, rest, hh, hn, h⟩)))))
    · simp at h; exact .inr (.inr (.inr (.inl ⟨w, h.symm⟩)))
    · simp at h; exact .inr (.inr (.inr (.inr (.inl ⟨w, h.symm⟩))))
    · simp at h; exact .inr (.inr (.inr (.inr (.inr (.inl ⟨j, w, h.symm⟩)))))
  · rw [h1] at h; simp at h; exact .inr (.inr (.inl h.symm))

/-- Everything a step that has a next state can do: a reset, a completion, or a host step. -/
theorem step_next {s t : State} (h : step s = .next t) :
    s.secondHost = [] ∧
    ((resetDue s = true ∧ t = applyReset s) ∨
     (resetDue s = false ∧ s.latLeft = 0 ∧ ∃ fl i, s.inflight = some fl ∧ decode fl.cmd = .ok i ∧
       exec i (advance s) = .next t) ∨
     (resetDue s = false ∧ completionDue s = false ∧ hostStep (advance s) = .next t)) := by
  obtain ⟨-, h1⟩ | ⟨h0, hr, h1⟩ | ⟨h0, hr, hc, h1⟩ | ⟨h0, hr, hc, h1⟩ := step_cases s
  · rw [h1] at h; simp at h
  · rw [h1] at h; simp at h; exact ⟨h0, .inl ⟨hr, h.symm⟩⟩
  · rw [h1] at h
    have hc' : s.inflight.isSome = true ∧ s.latLeft = 0 := by simpa [completionDue, busy] using hc
    obtain ⟨hn, -⟩ | ⟨fl, i, hi, hd, he⟩ := complete_cases h
    · simp only [advance_inflight] at hn
      simp [hn] at hc'
    · exact ⟨h0, .inr (.inl ⟨hr, hc'.2, fl, i, by simpa using hi, hd, he⟩)⟩
  · rw [h1] at h; exact ⟨h0, .inr (.inr ⟨hr, hc, h⟩)⟩

theorem completionDue_iff (s : State) : completionDue s = true ↔ s.inflight.isSome = true ∧ s.latLeft = 0 := by
  simp [completionDue, busy]

end Sys2Proof.Machine
end

