-- ==== Sys2Proof/Laws/PerInstr.lean ====
section
/-! SUPPORT. Facts about every command as syntax, one lemma per constructor: the encoding of a command matches its row
of the opcode map (spec/30_encoding.md R60), and its opcode field is its opcode. -/

namespace Sys2Proof.Laws

/-! ## The encoding matches the row -/

/-- R60: `(w & mask) == match` for the command's own word. -/
def RowMatch.Statement (i : Instr) : Prop := encode i &&& i.rowMask = i.rowMatch

theorem packFields_maskXorRate (fb fa : BitVec 8) (op : BitVec 4) :
    packFields fb fa op &&& 0xFF0000FF = op.setWidth 32 := by
  apply BitVec.eq_of_getLsbD_eq
  intro n hn
  interval_cases n <;> simp [packFields]

theorem packFields_maskLen (fa : BitVec 8) (op : BitVec 4) : packFields 0 fa op &&& 0xFFFF00FF = op.setWidth 32 := by
  apply BitVec.eq_of_getLsbD_eq
  intro n hn
  interval_cases n <;> simp [packFields]

theorem packFields_maskCount (fb : BitVec 8) (op : BitVec 4) : packFields fb 0 op &&& 0xFF00FFFF = op.setWidth 32 := by
  apply BitVec.eq_of_getLsbD_eq
  intro n hn
  interval_cases n <;> simp [packFields]

theorem RowMatch.nop : RowMatch.Statement .nop := by unfold RowMatch.Statement; decide
theorem RowMatch.init : RowMatch.Statement .init := by unfold RowMatch.Statement; decide
theorem RowMatch.xorRate (offset count : Nat) : RowMatch.Statement (.xorRate offset count) :=
  packFields_maskXorRate _ _ _
theorem RowMatch.permute : RowMatch.Statement .permute := by unfold RowMatch.Statement; decide
theorem RowMatch.absorb : RowMatch.Statement .absorb := by unfold RowMatch.Statement; decide
theorem RowMatch.absorbFinal (len : Nat) : RowMatch.Statement (.absorbFinal len) := packFields_maskLen _ _
theorem RowMatch.squeeze (count : Nat) : RowMatch.Statement (.squeeze count) := packFields_maskCount _ _

/-! ## The opcode field -/

/-- R58: bits [3:0] of the command's word are its opcode. -/
def OpcodeField.Statement (i : Instr) : Prop := opField (encode i) = i.opcode

theorem opField_packFields (fb fa : BitVec 8) (op : BitVec 4) : opField (packFields fb fa op) = op := by
  apply BitVec.eq_of_getLsbD_eq
  intro n hn
  interval_cases n <;> simp [opField, packFields]

theorem OpcodeField.nop : OpcodeField.Statement .nop := opField_packFields _ _ _
theorem OpcodeField.init : OpcodeField.Statement .init := opField_packFields _ _ _
theorem OpcodeField.xorRate (offset count : Nat) : OpcodeField.Statement (.xorRate offset count) :=
  opField_packFields _ _ _
theorem OpcodeField.permute : OpcodeField.Statement .permute := opField_packFields _ _ _
theorem OpcodeField.absorb : OpcodeField.Statement .absorb := opField_packFields _ _ _
theorem OpcodeField.absorbFinal (len : Nat) : OpcodeField.Statement (.absorbFinal len) := opField_packFields _ _ _
theorem OpcodeField.squeeze (count : Nat) : OpcodeField.Statement (.squeeze count) := opField_packFields _ _ _

end Sys2Proof.Laws
end

