-- ==== Sys2Proof/Tests/Slice0.lean ====
section
/-! SUPPORT. The model's own tests: the WellFormed smoke, words written out from the encoding, one-step results taken
from spec/95_test_vectors.md, and for every statement with hypotheses a state that meets them. -/

namespace Sys2Proof.Tests

open Sys2Proof Sys2Proof.Machine

/-! ## WellFormed smoke (R59, R65): each check refuses an operand of 256 -/

theorem test_wf_refuses_offset : (Instr.xorRate 256 0).wellFormed = false := by decide
theorem test_wf_refuses_xor_count : (Instr.xorRate 0 256).wellFormed = false := by decide
theorem test_wf_refuses_len : (Instr.absorbFinal 256).wellFormed = false := by decide
theorem test_wf_refuses_squeeze_count : (Instr.squeeze 256).wellFormed = false := by decide
theorem test_wf_takes_largest_operands : (Instr.xorRate 255 255).wellFormed = true := by decide

/-! ## Decoding, words written bit by bit: RSV1, FB, FA, RSV0, OP (R58, R60; values L2.1) -/

theorem test_decode_nop : decode 0b00000000_00000000_00000000_0000_0000 = .ok .nop := by decide
theorem test_decode_init : decode 0b00000000_00000000_00000000_0000_0001 = .ok .init := by decide
theorem test_decode_xor_rate : decode 0b00000000_00000110_00000101_0000_0010 = .ok (.xorRate 5 6) := by decide
theorem test_decode_permute : decode 0b00000000_00000000_00000000_0000_0011 = .ok .permute := by decide
theorem test_decode_absorb : decode 0b00000000_00000000_00000000_0000_0100 = .ok .absorb := by decide
theorem test_decode_absorb_final : decode 0b00000000_00000000_10000111_0000_0101 = .ok (.absorbFinal 135) := by decide
theorem test_decode_squeeze : decode 0b00000000_10001000_00000000_0000_0110 = .ok (.squeeze 136) := by decide
theorem test_decode_illegal_first : decode 0xFFFFFFFF = .error .illegalOpcode := by decide
theorem test_decode_rsv0 : decode 0x00000013 = .error .reservedBits := by decide
theorem test_decode_rsv1 : decode 0x01000001 = .error .reservedBits := by decide
theorem test_decode_unused_fa : decode 0x00000106 = .error .reservedBits := by decide
theorem test_decode_unused_fb : decode 0x00010005 = .error .reservedBits := by decide
theorem test_encode_xor_rate : encode (.xorRate 5 6) = 0x00060502 := by decide
theorem test_table_word : decodeTableWord 32 0x00200006 = some (.squeeze 32) := by decide
theorem test_table_word_refused : decodeTableWord 32 0x00000007 = none := by decide

/-! ## Small states -/

/-- A result's next state satisfies the test. -/
def nextHolds (r : Result) (p : State → Bool) : Bool :=
  match r with
  | .next t => p t
  | .fault _ => false
  | .refused _ => false

/-- A result is a fault. -/
def isFault (r : Result) (f : Fault) : Bool :=
  match r with
  | .next _ => false
  | .fault g => g == f
  | .refused _ => false

/-- BUF of L2.2: `BUF[p] = p + 1`. -/
def countingBlock : Block := Vector.ofFn fun p : Fin 136 => BitVec.ofNat 8 (p.val + 1)

/-- Idle in a phase. -/
def inPhase (p : Phase) : State := { State.reset with phase := p }

/-- In a phase with a command in flight on the counting block. -/
def inFlightIn (p : Phase) (w : Word) : State :=
  { inPhase p with inflight := some { cmd := w, snap := countingBlock }, latLeft := 2 }

/-- Idle in a phase with an error recorded. -/
def inError (p : Phase) : State := { inPhase p with err := true, errCode := 3, errOp := 4 }

/-- Idle in a phase, the host about to make one access. -/
def withAccess (p : Phase) (a : HostStmt) : State := { inPhase p with host := [a] }

/-- A state whose only nonzero lane is the one at a linear index. -/
def oneLane (i : Fin 25) (v : Lane) : Lanes := zeroLanes.set i v

/-! ## Acceptance from reset: the first step after a command word is placed (L2.10, L2.11) -/

theorem test_first_step_nop : nextHolds (step (State.reset.withFetchWord 32 0x00000000))
    (fun t => statusWord t == 0x00000000 && intStatWord t == 0) = true := by decide
theorem test_first_step_init : nextHolds (step (State.reset.withFetchWord 32 0x00000001))
    (fun t => statusWord t == 0x00000001 && intStatWord t == 0) = true := by decide
theorem test_first_step_permute : nextHolds (step (State.reset.withFetchWord 32 0x00000003))
    (fun t => statusWord t == 0x00003310 && intStatWord t == 2) = true := by decide
theorem test_first_step_absorb_final : nextHolds (step (State.reset.withFetchWord 32 0x00000005))
    (fun t => statusWord t == 0x00005310 && intStatWord t == 2) = true := by decide
theorem test_first_step_illegal : nextHolds (step (State.reset.withFetchWord 32 0x0000000F))
    (fun t => statusWord t == 0x0000F110 && intStatWord t == 2) = true := by decide
theorem test_first_step_reserved_before_phase : nextHolds (step (State.reset.withFetchWord 32 0x00FF0005))
    (fun t => statusWord t == 0x00005210) = true := by decide
theorem test_absorb_bad_range : nextHolds (acceptWord 0x0000FF05 (inPhase .absorb))
    (fun t => statusWord t == 0x00005412) = true := by decide
theorem test_xor_rate_bad_range : nextHolds (acceptWord 0x00008902 (inPhase .absorb))
    (fun t => statusWord t == 0x00002412) = true := by decide
theorem test_xor_rate_in_flight : nextHolds (acceptWord 0x00880002 (inPhase .absorb))
    (fun t => statusWord t == 0x00000003) = true := by decide
theorem test_squeeze_zero_bad_range : nextHolds (acceptWord 0x00000006 (inPhase .squeeze))
    (fun t => statusWord t == 0x00006414) = true := by decide
theorem test_squeeze_in_flight : nextHolds (acceptWord 0x00880006 (inPhase .squeeze))
    (fun t => statusWord t == 0x00000005) = true := by decide
theorem test_absorb_in_squeeze_bad_phase : nextHolds (acceptWord 0x00000004 (inPhase .squeeze))
    (fun t => statusWord t == 0x00004314) = true := by decide

/-! ## Completion (L2.2, L2.8, L2.10) -/

theorem test_init_completes : nextHolds (exec .init { inError .squeeze with
    inflight := some { cmd := 0x00000001, snap := zeroBlock }, lanes := oneLane 3 7, errP := true })
    (fun t => statusWord t == 0x00000002 && intStatWord t == 3 && t.lanes == zeroLanes) = true := by decide +kernel
theorem test_xor_rate_completes : nextHolds (exec (.xorRate 5 6) (inFlightIn .absorb 0x00060502))
    (fun t => t.lanes == ((zeroLanes.set 0 0x0807060000000000).set 1 0x00000000000B0A09)) = true := by decide +kernel
theorem test_xor_rate_last_lane : xorRate zeroLanes countingBlock 130 6 = oneLane 16 0x8887868584830000 := by
  decide +kernel
theorem test_squeeze_partial_lane : nextHolds (exec (.squeeze 9)
    { inFlightIn .squeeze 0x00090006 with lanes := (oneLane 0 0x66D71EBFF8C6FFA7).set 1 0x62D661A05647C151 })
    (fun t => bufferWord t.out 0 == 0xF8C6FFA7 && bufferWord t.out 1 == 0x66D71EBF && bufferWord t.out 2 == 0x00000051 &&
      t.out[9] == 0 && statusWord t == 0x0000000C) = true := by decide +kernel

/-! ## Padding (L2.5) -/

theorem test_pad_one_byte : (pad countingBlock 135)[135] = 0x86 ∧ (pad countingBlock 135)[134] = 0x87 := by
  decide +kernel
theorem test_pad_two_bytes : (pad countingBlock 134)[134] = 0x06 ∧ (pad countingBlock 134)[135] = 0x80 := by
  decide +kernel

/-! ## Permutation sub-steps (L2.3) and the whole (L2.4, L2.9) -/

theorem test_theta : theta (oneLane 0 1) = Vector.ofFn fun i : Fin 25 =>
    if i.val = 0 ∨ i.val % 5 = 1 then 1 else if i.val % 5 = 4 then 2 else 0 := by decide +kernel
theorem test_rho_pi : rhoPi (oneLane 6 1) = oneLane 1 0x0000100000000000 ∧
    rhoPi (oneLane 24 1) = oneLane 4 0x0000000000004000 := by decide +kernel
theorem test_rho_pi_traversal : rhoPiTraversal (oneLane 17 1) = oneLane 18 0x0000000000008000 ∧
    rhoPiTraversal (oneLane 13 1) = oneLane 12 0x0000000002000000 := by decide +kernel
theorem test_chi : chi ((oneLane 1 0xFFFFFFFFFFFFFFFF).set 2 0xFFFFFFFFFFFFFFFF) =
    ((oneLane 1 0xFFFFFFFFFFFFFFFF).set 2 0xFFFFFFFFFFFFFFFF).set 4 0xFFFFFFFFFFFFFFFF := by decide +kernel
theorem test_iota : iota zeroLanes 23 = oneLane 0 0x8000000080008008 := by decide +kernel
theorem test_two_rounds : laneAt (round (round zeroLanes 0) 1) 1 1 = 0x0000200000200000 ∧
    laneAt (round (round zeroLanes 0) 1) 3 2 = 0x0000000000000202 := by decide +kernel

set_option maxRecDepth 100000 in
/-- L2.9: the digest of the empty message, through Pad, XorRate, KeccakF and ReadRate. -/
theorem test_hash_empty : (readRate (absorbBlock zeroLanes (pad zeroBlock 0)) 32).take 4 = [0xa7, 0xff, 0xc6, 0xf8] := by
  decide +kernel

/-! ## The bus (L2.12), interrupts (L2.13), reset (L2.14) -/

theorem test_read_id : memRead State.reset 0x000 4 = .ok 0x53484133 := by decide
theorem test_read_param : memRead State.reset 0x004 4 = .ok 0x00182088 := by decide
theorem test_read_id_at_base : nextHolds (step { withAccess .idle (.read 0x40000000 4) with base := 0x40000000 })
    (fun t => t.reads == [0x53484133] && t.base == 0x40000000) = true := by decide
theorem test_last_offset_is_unmapped :
    isFault (step { withAccess .idle (.read 0x40000FFC 4) with base := 0x40000000 }) .unmapped = true := by decide
theorem test_below_base_is_not_the_block :
    step { withAccess .idle (.write 0x3FFFFFFC 4 1) with base := 0x40000000 } = .refused .outsideBlock := rfl
theorem test_read_misaligned_faults :
    isFault (step (withAccess .idle (.read 0x003 4))) .misaligned = true := by decide
theorem test_read_cmd_faults : isFault (step (withAccess .idle (.read 0x008 4))) .readWriteOnly = true := by decide
theorem test_write_out_faults : isFault (step (withAccess .idle (.write 0x200 4 0))) .writeReadOnly = true := by decide
theorem test_read_past_buf_faults : isFault (step (withAccess .idle (.read 0x188 4))) .unmapped = true := by decide
theorem test_halfword_faults : isFault (step (withAccess .idle (.read 0x100 2))) .unsupportedSize = true := by decide
theorem test_buf_byte_order : nextHolds (step (withAccess .idle (.write 0x100 4 0x44332211)))
    (fun t => t.buf[0] == 0x11 && t.buf[3] == 0x44 && bufferWord t.buf 0 == 0x44332211) = true := by decide +kernel
theorem test_w1c_clears_done : nextHolds (step { withAccess .absorb (.write 0x014 4 1) with
    doneP := true, errP := true, doneIE := true }) (fun t => intStatWord t == 2 && !irq t) = true := by decide
theorem test_second_host_refused : step { State.reset with secondHost := [.wait] } = .refused .twoHosts := rfl
theorem test_reset_in_flight : nextHolds (step { inFlightIn .absorb 0x00000005 with resetPin := [true] })
    (fun t => statusWord t == 0 && intStatWord t == 0 && t.inflight == none) = true := by decide

/-! ## The assembler (R65, R66) -/

theorem test_read_line : readLine ['X', 'O', 'R', '_', 'R', 'A', 'T', 'E', ' ', '5', ',', ' ', '0', 'x', '6', ' ', ';', '!'] =
    some [.command (.xorRate 5 6)] := by decide
theorem test_read_result_line : readLine ['R', 'D', ' ', '0', 'x', '2', '0', '0', ' ', '-', '>', ' ', '7'] =
    some [.rd 0x200] := by decide
theorem test_read_cmd_word : readLine ['C', 'M', 'D', ' ', '0', 'x', '1', '0', '0'] = some [.wr 0x008 0x100] := by decide
theorem test_read_cmd_statement : readLine ['C', 'M', 'D', ' ', 'I', 'N', 'I', 'T'] = some [.command .init] := by decide
theorem test_load_abc : loadBuf 0x4000 [0x61, 0x62, 0x63] = [.write 0x4100 4 0x00636261] := by decide
theorem test_assembler_refuses : expand 0 (.command (.absorbFinal 256)) = none := by decide

/-! ## Witnesses: for each statement with hypotheses, states and operands that meet them, at the ends of their ranges -/

/-- A state the invariant holds of, with the command of a word in flight. -/
theorem inFlight_stateInv {w : Word} {i : Instr} (hd : decode w = .ok i) (hn : i ≠ .nop)
    (hl : legal .absorb i = true) (hr : inRange i = true) : StateInv (inFlightIn .absorb w) where
  no_error_no_code := fun _ => ⟨rfl, rfl⟩
  error_code_named := fun h => by simp [inFlightIn, inPhase, State.reset] at h
  error_no_output := fun _ => rfl
  invalid_out_zero := fun _ => rfl
  output_in_squeeze := fun h => by simp [inFlightIn, inPhase, State.reset] at h
  idle_state_zero := fun h => by simp [inFlightIn, inPhase, State.reset] at h
  inflight_accepted := fun fl h => by
    obtain rfl : ({ cmd := w, snap := countingBlock } : InFlight) = fl := Option.some.inj h
    exact ⟨i, hd, hn, hl, hr, fun he => by simp [inFlightIn, inPhase, State.reset] at he⟩
  rnd_idle := fun _ => rfl
  latency_idle := fun h => by simp [inFlightIn] at h

/-- A state the invariant holds of, with an error recorded. -/
theorem inError_stateInv : StateInv (inError .absorb) where
  no_error_no_code := fun h => absurd h (by decide)
  error_code_named := fun _ => .inr (.inr (.inl rfl))
  error_no_output := fun _ => rfl
  invalid_out_zero := fun _ => rfl
  output_in_squeeze := fun h => absurd h (by decide)
  idle_state_zero := fun h => absurd h (by decide)
  inflight_accepted := fun fl h => by simp [inError, inPhase, State.reset] at h
  rnd_idle := fun _ => rfl
  latency_idle := fun _ => rfl

theorem witness_DecodeOfEncodeIsTheCommand : (Instr.xorRate 0 255).wellFormed = true ∧
    (Instr.absorbFinal 255).wellFormed = true ∧ (Instr.squeeze 255).wellFormed = true := by decide
theorem witness_EncodeOfDecodeIsTheWord : decode 0x00FFFF02 = .ok (.xorRate 255 255) ∧
    decode 0x00000000 = .ok .nop := by decide
theorem witness_WordSpellsCommandByMatchAndMask : 0x7 ≤ ((0x00000007 : Word).extractLsb' 0 4).toNat ∧
    0x7 ≤ ((0x0000000F : Word).extractLsb' 0 4).toNat := by decide
theorem witness_ReservedOpcodeRecordsIllegalOpcode : (inPhase .absorb).inflight = none ∧ (inPhase .absorb).err = false ∧
    (inError .absorb).inflight = none ∧ (inError .absorb).err = true ∧
    0x7 ≤ ((0x00000007 : Word).extractLsb' 0 4).toNat := by decide
theorem witness_UnmatchedWordRecordsReservedBits : (inPhase .absorb).inflight = none ∧ (inError .absorb).err = true ∧
    matchesNoRow 0x00000013 = true ∧ matchesNoRow 0x00008800 = true ∧ matchesNoRow 0x01000001 = true ∧
    matchesNoRow 0x00000016 = true ∧ ((0x00000016 : Word).extractLsb' 0 4).toNat ≤ 0x6 := by decide
theorem witness_StepRunsThePresentedCommand : ∃ s w i rest, undisturbed s ∧ s.inflight = none ∧
    s.host = .write (s.base + 0x008) 4 w :: rest ∧ decode w = .ok i :=
  ⟨withAccess .absorb (.write 0x008 4 0x00880002), 0x00880002, .xorRate 0 136, [], ⟨rfl, rfl⟩, rfl, rfl, by decide⟩
theorem witness_StepRefusesAWordThatIsNoCommand : ∃ s w e rest, undisturbed s ∧ s.inflight = none ∧
    s.host = .write (s.base + 0x008) 4 w :: rest ∧ decode w = .error e :=
  ⟨withAccess .absorb (.write 0x008 4 0x00000007), 0x00000007, .illegalOpcode, [], ⟨rfl, rfl⟩, rfl, rfl, by decide⟩
theorem witness_StepCompletesTheCommandInFlight : ∃ s fl i, undisturbed s ∧ s.inflight = some fl ∧ s.latLeft = 0 ∧
    decode fl.cmd = .ok i :=
  ⟨{ inFlightIn .absorb 0x00000004 with latLeft := 0 }, ⟨0x00000004, countingBlock⟩, .absorb, ⟨rfl, rfl⟩, rfl, rfl,
    by decide⟩
theorem witness_CommandWriteIsHeldWhileBusy : ∃ s w rest, hostTurn s ∧ s.inflight.isSome = true ∧
    s.host = .write (s.base + 0x008) 4 w :: rest :=
  ⟨{ inFlightIn .absorb 0x00000004 with host := [.write 0x008 4 0x00000005], latLeft := 1 }, 0x00000005, [],
    ⟨⟨rfl, rfl⟩, rfl⟩, rfl, rfl⟩
theorem witness_HeldCommandWriteIsAlwaysAccepted : ∃ s w rest, StateInv s ∧ s.secondHost = [] ∧
    (∀ b ∈ s.resetPin, b = false) ∧ s.inflight.isSome = true ∧ s.host = .write (s.base + 0x008) 4 w :: rest := by
  have h := inFlight_stateInv (w := 0x00000004) (i := .absorb) (by decide) (by decide) (by decide) (by decide)
  exact ⟨{ inFlightIn .absorb 0x00000004 with host := [.write 0x008 4 0x00000005] }, 0x00000005, [],
    ⟨h.1, h.2, h.3, h.4, h.5, h.6, h.7, h.8, h.9⟩, rfl, by simp [inFlightIn, inPhase, State.reset], rfl, rfl⟩
theorem witness_TwoHostsAreRefused : ({ State.reset with secondHost := [.wait] } : State).secondHost ≠ [] := by decide
theorem witness_ResetSetsEveryPieceOfState : ∃ s pins t, s.secondHost = [] ∧ s.resetPin = true :: pins ∧
    step s = .next t ∧ s.inflight.isSome = true :=
  ⟨{ inFlightIn .absorb 0x00000004 with resetPin := [true] }, [], _, rfl, rfl, rfl, rfl⟩
theorem witness_ResetAbandonsTheCommandAndKeepsTheHeldWrite : ∃ s : State, s.secondHost = [] ∧ s.resetPin = [true] ∧
    s.resetPin.tail.headD false = false ∧ s.host = [.write 0x008 4 0x00000001] ∧ s.inflight.isSome = true :=
  ⟨{ inFlightIn .absorb 0x00000004 with resetPin := [true], host := [.write 0x008 4 0x00000001] },
    rfl, rfl, rfl, rfl, rfl⟩
theorem witness_ResetAbandons_heldAbsorb : ∃ s : State, s.secondHost = [] ∧ s.resetPin = [true] ∧
    s.resetPin.tail.headD false = false ∧ s.host = [.write 0x008 4 0x00000004] ∧ s.inflight.isSome = true :=
  ⟨{ inFlightIn .absorb 0x00000004 with resetPin := [true], host := [.write 0x008 4 0x00000004] },
    rfl, rfl, rfl, rfl, rfl⟩
theorem witness_IdleBlockKeepsEveryState : undisturbed (inPhase .squeeze) ∧ (inPhase .squeeze).host = [] ∧
    (inPhase .squeeze).inflight = none := ⟨⟨rfl, rfl⟩, rfl, rfl⟩
theorem witness_BusErrors_read : ∃ (s : State) (off : Offset) (size : Nat) (rest : List HostStmt),
    hostTurn s ∧ s.host = .read (s.base + off.toNat) size :: rest ∧
    ¬ readable off.toNat size :=
  ⟨withAccess .idle (.read 0x288 4), 0x288, 4, [], ⟨⟨rfl, rfl⟩, rfl⟩, rfl, by simp [readable]⟩
theorem witness_BusErrors_write : ∃ (s : State) (off : Offset) (size : Nat) (w : Word) (rest : List HostStmt),
    hostTurn s ∧ s.host = .write (s.base + off.toNat) size w :: rest ∧
    ¬ writable off.toNat size :=
  ⟨withAccess .idle (.write 0x200 4 0), 0x200, 4, 0, [], ⟨⟨rfl, rfl⟩, rfl⟩, rfl, by simp [writable]⟩
theorem witness_BusErrorsAreExactlyTheUnsupportedAccesses : readable 0x284 4 ∧ writable 0x184 4 ∧
    ¬ readable 0x188 4 ∧ ¬ writable 0x188 4 ∧ ¬ readable 0x008 4 ∧ ¬ readable 0x000 2 := by
  simp [readable, writable]
theorem witness_BusErrors_outside : ∃ (s : State) (addr size : Nat) (rest : List HostStmt),
    hostTurn s ∧ (addr < s.base ∨ s.base + 0x1000 ≤ addr) ∧ s.host = .read addr size :: rest :=
  ⟨{ withAccess .idle (.read 0x40001000 4) with base := 0x40000000 }, 0x40001000, 4, [], ⟨⟨rfl, rfl⟩, rfl⟩,
    .inr (by decide), rfl⟩
theorem witness_ReadsHaveNoSideEffect : ∃ (s : State) (off : Offset) (size : Nat) (rest : List HostStmt),
    hostTurn s ∧ s.host = .read (s.base + off.toNat) size :: rest ∧
    readable off.toNat size :=
  ⟨withAccess .idle (.read 0x284 4), 0x284, 4, [], ⟨⟨rfl, rfl⟩, rfl⟩, rfl, by simp [readable]⟩
theorem witness_StatusWordHoldsItsFields : hostTurn (withAccess .absorb (.read 0x00C 4)) ∧
    (withAccess .absorb (.read 0x00C 4)).host = [.read 0x00C 4] := ⟨⟨⟨rfl, rfl⟩, rfl⟩, rfl⟩
theorem witness_BusyIsThatACommandIsInFlight : (inPhase .absorb).inflight = none ∧
    (∃ t, exec .absorb (inPhase .absorb) = .next t) ∧
    (∃ fl t, (inFlightIn .absorb 0x00000004).inflight = some fl ∧ decode fl.cmd = .ok .absorb ∧
      exec .absorb (inFlightIn .absorb 0x00000004) = .next t) :=
  ⟨rfl, exec_next _ _, by
    obtain ⟨t, h⟩ := exec_next .absorb (inFlightIn .absorb 0x00000004)
    exact ⟨_, t, rfl, by decide, h⟩⟩
theorem witness_Busy_refusedWord : (inPhase .absorb).inflight = none ∧ decode 0x00000007 = .error .illegalOpcode ∧
    ∃ t, acceptWord 0x00000007 (inPhase .absorb) = .next t := ⟨rfl, by decide, _, rfl⟩
theorem witness_InterruptEnableRegister : ∃ s w rest, hostTurn s ∧ s.inflight.isSome = true ∧
    s.host = .write (s.base + 0x010) 4 w :: rest ∧ w.getLsbD 0 = true ∧ w.getLsbD 1 = false :=
  ⟨{ inFlightIn .absorb 0x00000004 with host := [.write 0x010 4 0xFFFFFFFD] }, 0xFFFFFFFD, [], ⟨⟨rfl, rfl⟩, rfl⟩, rfl,
    rfl, by decide, by decide⟩
theorem witness_InterruptStatus_write : ∃ s w rest, hostTurn s ∧ s.inflight.isSome = true ∧
    s.host = .write (s.base + 0x014) 4 w :: rest ∧ w.getLsbD 0 = false ∧ w.getLsbD 1 = true :=
  ⟨{ inFlightIn .absorb 0x00000004 with host := [.write 0x014 4 0xFFFFFFFE] }, 0xFFFFFFFE, [], ⟨⟨rfl, rfl⟩, rfl⟩, rfl,
    rfl, by decide, by decide⟩
theorem witness_InterruptStatusRegister : ∃ s fl t, s.inflight = some fl ∧ decode fl.cmd = .ok .init ∧
    exec .init s = .next t := by
  obtain ⟨t, h⟩ := exec_next .init (inFlightIn .absorb 0x00000001)
  exact ⟨_, _, t, rfl, by decide, h⟩
theorem witness_BufferWriteStoresItsFourBytes : ∃ s w rest, hostTurn s ∧ s.inflight.isSome = true ∧
    s.host = .write (s.base + (0x100 + 4 * 33)) 4 w :: rest :=
  ⟨{ inFlightIn .absorb 0x00000004 with host := [.write 0x184 4 0x61616161] }, 0x61616161, [], ⟨⟨rfl, rfl⟩, rfl⟩, rfl, rfl⟩
theorem witness_OutputReadReturnsItsFourBytes : ∃ s rest, hostTurn s ∧
    s.host = .read (s.base + (0x200 + 4 * 33)) 4 :: rest :=
  ⟨withAccess .squeeze (.read 0x284 4), [], ⟨⟨rfl, rfl⟩, rfl⟩, rfl⟩
theorem witness_PhaseLegalityTable : (inPhase .squeeze).inflight = none ∧ (inPhase .squeeze).err = false ∧
    decode 0x00000004 = .ok .absorb ∧ legal (inPhase .squeeze).phase .absorb = false := by decide
theorem witness_AcceptanceIsThePriorityChain : (inPhase .absorb).inflight = none ∧
    undisturbed (withAccess .absorb (.write 0x008 4 0x00000004)) ∧
    (withAccess .absorb (.write 0x008 4 0x00000004)).host = [.write 0x008 4 0x00000004] ∧
    (withAccess .absorb (.write 0x008 4 0x00000004)).inflight = none := ⟨rfl, ⟨rfl, rfl⟩, rfl, rfl⟩
theorem witness_Acceptance_held : ∃ s t w rest, undisturbed s ∧ s.host = .write (s.base + 0x008) 4 w :: rest ∧
    s.inflight.isSome = true ∧ step s = .next t :=
  ⟨{ inFlightIn .absorb 0x00000004 with host := [.write 0x008 4 0x00000005], latLeft := 1 }, _, 0x00000005, [],
    ⟨rfl, rfl⟩, rfl, rfl, rfl⟩
theorem witness_RecordErrorIsTheOnlyErrorAction : ∃ s t, step s = .next t ∧ s.err = false ∧ t.err = true :=
  ⟨withAccess .idle (.write 0x008 4 0x00000003), _, rfl, rfl, rfl⟩
theorem witness_RecordError_nested : (inError .squeeze).err = true := rfl
theorem witness_ErrorLockDiscardsEveryOtherWord : (inError .absorb).inflight = none ∧ (inError .absorb).err = true ∧
    (0x00000003 : Word).extractLsb' 0 4 ≠ 0x0 ∧ (0x00000003 : Word).extractLsb' 0 4 ≠ 0x1 ∧
    (0x00000100 : Word).extractLsb' 0 4 = 0x0 := by decide
theorem witness_ErrorStaysUntilInitCompletes : ∃ s t, StateInv s ∧ s.err = true ∧ step s = .next t ∧
    resetDue s = false := ⟨inError .absorb, _, inError_stateInv, rfl, rfl, rfl⟩
theorem witness_NopChangesNothing : (inError .absorb).inflight = none ∧ (0x00000100 : Word).extractLsb' 0 4 = 0x0 ∧
    (0x00000100 : Word) ≠ 0x00000000 := by decide
theorem witness_InitOpensAFreshContext : (inError .squeeze).inflight = none ∧
    (inFlightIn .absorb 0x00000001).inflight = some { cmd := 0x00000001, snap := countingBlock } ∧
    (0x01000001 : Word).extractLsb' 0 4 = 0x1 := ⟨rfl, rfl, by decide⟩
theorem witness_InitClearsAnError : ∃ s t, exec .init s = .next t ∧ s.err = true ∧ t.err = false :=
  ⟨{ inError .squeeze with inflight := some { cmd := 0x00000001, snap := zeroBlock } }, _, rfl, rfl, rfl⟩
theorem witness_XorRateCommand : (inPhase .absorb).inflight = none ∧ (inPhase .absorb).err = false ∧
    (inPhase .absorb).phase = .absorb ∧ 130 + 6 ≤ 136 ∧ 136 < 137 + 0 ∧ (inPhase .squeeze).phase ≠ .absorb ∧
    (inFlightIn .absorb (BitVec.ofNat 32 (0x2 + 256 * 130 + 65536 * 6))).inflight =
      some { cmd := BitVec.ofNat 32 (0x2 + 256 * 130 + 65536 * 6), snap := countingBlock } :=
  ⟨rfl, rfl, rfl, by decide, by decide, by decide, rfl⟩
theorem witness_PermuteCommand_rounds : ∃ B : Nat → Lanes, B 0 = oneLane 6 1 ∧
    ∀ ir : Fin 24, B (ir.val + 1) = round (B ir.val) ir :=
  ⟨fun n => Nat.rec (oneLane 6 1) (fun k A => if h : k < 24 then round A ⟨k, h⟩ else A) n, rfl, fun ir => by
    simp [ir.isLt]⟩
theorem witness_PermuteCommand : (inPhase .squeeze).inflight = none ∧ (inPhase .squeeze).err = false ∧
    (inPhase .squeeze).phase ≠ .idle ∧ (inPhase .idle).phase = .idle ∧
    (inFlightIn .squeeze 0x00000003).inflight = some { cmd := 0x00000003, snap := countingBlock } :=
  ⟨rfl, rfl, by decide, rfl, rfl⟩
theorem witness_AbsorbCommand : (inPhase .absorb).inflight = none ∧ (inPhase .absorb).err = false ∧
    (inPhase .absorb).phase = .absorb ∧ (inPhase .idle).phase ≠ .absorb ∧
    (inFlightIn .absorb 0x00000004).inflight = some { cmd := 0x00000004, snap := countingBlock } :=
  ⟨rfl, rfl, rfl, by decide, rfl⟩
theorem witness_AbsorbFinalCommand : (inPhase .absorb).inflight = none ∧ (inPhase .absorb).phase = .absorb ∧
    135 < 256 ∧ 135 ≤ 135 ∧ 135 < 136 ∧
    (inFlightIn .absorb (BitVec.ofNat 32 (0x5 + 256 * 135))).inflight =
      some { cmd := BitVec.ofNat 32 (0x5 + 256 * 135), snap := countingBlock } :=
  ⟨rfl, rfl, by decide, by decide, by decide, rfl⟩
theorem witness_SqueezeCommand : (inPhase .squeeze).inflight = none ∧ (inPhase .squeeze).phase = .squeeze ∧
    1 ≤ 136 ∧ 136 < 137 ∧
    (inFlightIn .squeeze (BitVec.ofNat 32 (0x6 + 65536 * 136))).inflight =
      some { cmd := BitVec.ofNat 32 (0x6 + 65536 * 136), snap := countingBlock } :=
  ⟨rfl, rfl, by decide, by decide, rfl⟩
theorem witness_FrameOfEveryCommand : (∃ t, exec (.xorRate 130 6) (inFlightIn .absorb 0x00068202) = .next t) ∧
    (∃ t, exec .permute (inError .absorb) = .next t) ∧ (∃ t, exec .absorb (inPhase .absorb) = .next t) :=
  ⟨exec_next _ _, exec_next _ _, exec_next _ _⟩
theorem witness_XorRateActsOnItsBytes : 0 + 136 ≤ 136 ∧ 136 + 0 ≤ 136 ∧ 24 < 25 ∧ 7 < 8 := by decide
theorem witness_ReadRateReturnsTheFirstBytes : 0 ≤ 136 ∧ 136 ≤ 136 ∧ 135 < 136 := by decide
theorem witness_RateAccessesNeverTouchTheCapacity : ∃ A B : Lanes, A ≠ B ∧
    ∀ (k : Nat) (h : k < 25), k < 17 → A[k] = B[k] := by
  refine ⟨zeroLanes, zeroLanes.set 17 1, by decide +kernel, fun k h hk => ?_⟩
  rw [Vector.getElem_set_ne]
  omega
theorem witness_PadBuildsTheFinalBlock : 0 ≤ 135 ∧ 135 ≤ 135 ∧ 134 < 135 := by decide
theorem witness_AbsorbEqualsXorRateThenPermute : (inPhase .absorb).inflight = none ∧ (inPhase .absorb).err = false ∧
    (inPhase .absorb).phase = .absorb := ⟨rfl, rfl, rfl⟩
theorem witness_BlockAbsorptionEqualsPaddedMessage : ∃ (msg : List Byte) (last : Block), msg ≠ [] ∧
    ∀ (p : Nat) (_ : p < 136), p < msg.length % 136 → msg[136 * (msg.length / 136) + p]? = some last[p] := by
  refine ⟨[0x61], Vector.replicate 136 0x61, by simp, fun p h hp => ?_⟩
  obtain rfl : p = 0 := by simpa using hp
  simp
theorem witness_HashCommandsComputeTheHash : (inError .squeeze).inflight = none := rfl
theorem witness_EveryStepKeepsTheInvariant : ∃ s t, StateInv s ∧ step s = .next t :=
  ⟨inFlightIn .absorb 0x00000004, _,
    inFlight_stateInv (by decide : decode 0x00000004 = .ok .absorb) (by decide) (by decide) (by decide), rfl⟩
theorem witness_CompletionNeverStops : ∃ s, StateInv s ∧ undisturbed s ∧ completionDue s = true := by
  have h := inFlight_stateInv (w := 0x00000004) (i := .absorb) (by decide) (by decide) (by decide) (by decide)
  exact ⟨{ inFlightIn .absorb 0x00000004 with latLeft := 0 },
    ⟨h.1, h.2, h.3, h.4, h.5, h.6, h.7, h.8, fun _ => rfl⟩, ⟨rfl, rfl⟩, rfl⟩
theorem witness_PhaseChanges : ∃ s t, step s = .next t ∧ t.phase ≠ s.phase :=
  ⟨{ inFlightIn .squeeze 0x00000001 with latLeft := 0 }, _, rfl, by decide⟩
theorem witness_OutputIsWritten : ∃ s t, step s = .next t ∧ t.out ≠ s.out :=
  ⟨{ withAccess .idle (.write 0x008 4 0x00000007) with out := countingBlock }, _, rfl, by decide +kernel⟩
theorem witness_CapacityChanges : ∃ s t, step s = .next t ∧ t.lanes[24] ≠ s.lanes[24] :=
  ⟨{ inFlightIn .squeeze 0x00000001 with latLeft := 0, lanes := oneLane 24 1 }, _, rfl, by decide +kernel⟩
theorem witness_CapacityIsOpaqueToTheHost : ∃ s s' t, s ≠ s' ∧ agreeButCapacity s s' ∧
    ¬ (completionDue s = true ∧ permuting s = true) ∧ step s = .next t := by
  refine ⟨withAccess .squeeze (.read 0x200 4), { withAccess .squeeze (.read 0x200 4) with lanes := oneLane 17 1 }, _,
    by decide +kernel, ⟨rfl, fun i hi => ?_⟩, by decide, rfl⟩
  show (zeroLanes.set 17 1)[i] = zeroLanes[i]
  rw [Vector.getElem_set_ne]
  omega
theorem witness_CommandInFlightIgnoresBuf : (inFlightIn .absorb 0x00000004).inflight.isSome = true ∧
    ∃ t, exec .absorb (inFlightIn .absorb 0x00000004) = .next t := ⟨rfl, exec_next _ _⟩
theorem witness_StateHoldsWhileACommandIsInFlight : ∃ s t, step s = .next t ∧ s.inflight.isSome = true ∧
    resetDue s = false ∧ s.latLeft ≠ 0 := ⟨inFlightIn .absorb 0x00000004, _, rfl, rfl, rfl, by decide⟩
theorem witness_OutputValidRises : ∃ s t, step s = .next t ∧ s.outValid = false ∧ t.outValid = true :=
  ⟨{ inFlightIn .squeeze 0x00880006 with latLeft := 0 }, _, rfl, rfl, rfl⟩
theorem witness_OutputValidFalls : ∃ s t, step s = .next t ∧ s.outValid = true ∧ t.outValid = false :=
  ⟨{ withAccess .squeeze (.write 0x008 4 0x00000004) with outValid := true }, _, rfl, rfl, rfl⟩

end Sys2Proof.Tests
end

/-! The rotation of a lane against the library's, and the step where no command is in flight or a second host drives the
instance (spec/00_scope.md R12, R17, R19). -/

namespace Sys2Proof.Machine

/-! ## The rotation -/

/-- R12: the special case of a rotation by a multiple of 64 agrees with the library's two shifts. -/
theorem rotl64_eq_rotateLeft (v : Lane) (n : Nat) : rotl64 v n = v.rotateLeft n := by
  unfold rotl64
  rw [BitVec.rotateLeft_def]
  split
  next h => simp [h, BitVec.ushiftRight_eq_zero]
  next => rfl

@[simp] theorem rotl64_zero (v : Lane) : rotl64 v 0 = v := rfl

/-- R12: bit `k` of a lane moves to bit `(k + n) mod 64`; it either stays below 64 or wraps around once. -/
theorem getLsbD_rotl64 (v : Lane) (n : Nat) {k : Nat} (hk : k < 64) :
    (rotl64 v n).getLsbD ((k + n) % 64) = v.getLsbD k := by
  rw [rotl64_eq_rotateLeft, BitVec.getLsbD_rotateLeft]
  by_cases hwrap : k + n % 64 < 64
  · have hpos : (k + n) % 64 = k + n % 64 := by omega
    simp [hpos, hwrap]
  · have hpos : (k + n) % 64 = k + n % 64 - 64 := by omega
    have hlow : k + n % 64 - 64 < n % 64 := by omega
    have hback : 64 - n % 64 + (k + n % 64 - 64) = k := by omega
    simp [hpos, hlow, hback]

/-! ## The step at the host's turn -/

/-- R9: at the host's turn a step is the passing of one step, then the host's access. -/
theorem step_of_hostTurn {s : State} (h : hostTurn s) : step s = hostStep (advance s) := by
  obtain ⟨⟨hsecond, hreset⟩, hdue⟩ := h
  simp [step, hsecond, hreset, hdue]

/-- R9: with no command in flight an undisturbed step is the host's. -/
theorem hostTurn_of_idle {s : State} (hu : undisturbed s) (hi : s.inflight = none) : hostTurn s :=
  ⟨hu, by simp [completionDue, busy, hi]⟩

theorem hostStep_noAccess {s : State} (h : s.host = []) : hostStep s = .next s := by
  simp [hostStep, h]

/-- R39: `rnd` keeps its value when no command is in flight; only the counters of the step pass. -/
theorem advance_of_idle {s : State} (hi : s.inflight = none) :
    advance s = { s with latLeft := s.latLeft - 1, resetPin := s.resetPin.tail, tick := s.tick + 1 } := by
  simp [advance, permuting, hi]

end Sys2Proof.Machine

namespace Sys2Proof.Proofs
open Sys2Proof.Machine

/-- Settles O44: the rotation is the library's, whose bits move around the lane. -/
theorem rotationIsCircular : Obligations.RotationIsCircular :=
  fun v n => ⟨rotl64_eq_rotateLeft v n, rotl64_zero v, fun _ hk => getLsbD_rotl64 v n hk⟩

/-- Settles O12: the check for a second host comes before everything else a step does. -/
theorem twoHostsAreRefused : Obligations.TwoHostsAreRefused := by
  intro s hsecond
  simp [step, hsecond]

/-- Settles O15: the step is the host's, which makes no access, and without a command in flight only the counters pass. -/
theorem idleBlockKeepsEveryState : Obligations.IdleBlockKeepsEveryState := by
  intro s hu hhost hi
  calc step s = hostStep (advance s) := step_of_hostTurn (hostTurn_of_idle hu hi)
    _ = .next (advance s) := hostStep_noAccess hhost
    _ = _ := by rw [advance_of_idle hi]

end Sys2Proof.Proofs

/-! The words of the registers and the host's access to them, and what a step can do to the fields the commands work on:
the matrix, OUT, OUT_VALID, the phase and the error (spec/10_state.md R22 to R38). -/

namespace Sys2Proof.Machine

/-! ## The words of the registers -/

/-- A word or-ed in above the bits of another one adds to it. -/
theorem toNat_or_shiftLeft {x y : Word} {k m n : Nat} (hx : x.toNat = m) (hy : y.toNat = n) (hm : m < 2 ^ k)
    (hn : n * 2 ^ k < 2 ^ 32) : (x ||| y <<< k).toNat = m + 2 ^ k * n := by
  rw [BitVec.toNat_or, BitVec.toNat_shiftLeft, Nat.shiftLeft_eq, hx, hy, Nat.mod_eq_of_lt hn, Nat.or_comm,
    Nat.mul_comm, ← Nat.two_pow_add_eq_or_of_lt hm, Nat.add_comm]

@[simp] theorem toNat_flagWord (b : Bool) : (flagWord b).toNat = b.toNat := by
  cases b <;> rfl

@[simp] theorem getElem_flagWord (b : Bool) {k : Nat} (hk : k < 32) : (flagWord b)[k] = (decide (k = 0) && b) := by
  simp [flagWord]

/-- R30: the fields of STATUS do not overlap: each one lies above the sum of those before it. -/
theorem toNat_statusWord (s : State) :
    (statusWord s).toNat = (busy s).toNat + 2 * (phaseBits s.phase).toNat + 8 * s.outValid.toNat + 16 * s.err.toNat +
      256 * s.errCode.toNat + 4096 * s.errOp.toNat := by
  have hbusy := (busy s).toNat_lt
  have hphase := (phaseBits s.phase).isLt
  have hvalid := s.outValid.toNat_lt
  have herr := s.err.toNat_lt
  have hcode := s.errCode.isLt
  have hop := s.errOp.isLt
  have withPhase := toNat_or_shiftLeft (k := 1) (toNat_flagWord (busy s))
    (BitVec.toNat_setWidth_of_le (w' := 32) (b := phaseBits s.phase) (by decide)) (by omega) (by omega)
  have withValid := toNat_or_shiftLeft (k := 3) withPhase (toNat_flagWord s.outValid) (by omega) (by omega)
  have withErr := toNat_or_shiftLeft (k := 4) withValid (toNat_flagWord s.err) (by omega) (by omega)
  have withCode := toNat_or_shiftLeft (k := 8) withErr
    (BitVec.toNat_setWidth_of_le (w' := 32) (b := s.errCode) (by decide)) (by omega) (by omega)
  exact toNat_or_shiftLeft (k := 12) withCode
    (BitVec.toNat_setWidth_of_le (w' := 32) (b := s.errOp) (by decide)) (by omega) (by omega)

/-- R30: bits 5 to 7 and 16 to 31 of STATUS are reserved: no field of the sum reaches them. -/
theorem statusWord_reserved (s : State) :
    (statusWord s).extractLsb' 5 3 = 0 ∧ (statusWord s).extractLsb' 16 16 = 0 := by
  have hsum := toNat_statusWord s
  have hbusy := (busy s).toNat_lt
  have hphase := (phaseBits s.phase).isLt
  have hvalid := s.outValid.toNat_lt
  have herr := s.err.toNat_lt
  have hcode := s.errCode.isLt
  have hop := s.errOp.isLt
  simp only [BitVec.toNat_eq, BitVec.extractLsb'_toNat, Nat.shiftRight_eq_div_pow,
    BitVec.ofNat_eq_ofNat, BitVec.toNat_ofNat, Nat.zero_mod]
  omega

/-- R31: bit 0 of STATUS is BUSY. -/
theorem getLsbD_statusWord_zero (s : State) : (statusWord s).getLsbD 0 = busy s := by
  simp [statusWord]

/-- R35, R36: the shape of INT_EN and INT_STAT, two flags in bits 0 and 1. -/
theorem toNat_flagPair (a b : Bool) : (flagWord a ||| flagWord b <<< 1).toNat = a.toNat + 2 * b.toNat := by
  cases a <;> cases b <;> rfl

theorem getLsbD_flagPair (a b : Bool) :
    (flagWord a ||| flagWord b <<< 1).getLsbD 0 = a ∧ (flagWord a ||| flagWord b <<< 1).getLsbD 1 = b ∧
      ∀ k, 2 ≤ k → (flagWord a ||| flagWord b <<< 1).getLsbD k = false := by
  refine ⟨by simp, by simp, fun k hk => Nat.testBit_lt_two_pow ?_⟩
  have ha := a.toNat_lt
  have hb := b.toNat_lt
  calc (flagWord a ||| flagWord b <<< 1).toNat = a.toNat + 2 * b.toNat := toNat_flagPair a b
    _ < 2 ^ 2 := by omega
    _ ≤ 2 ^ k := Nat.pow_le_pow_right (by decide) hk

/-! ## Reading and writing a register -/

theorem memRead_id (s : State) : memRead s 0x000 4 = .ok idWord := rfl
theorem memRead_param (s : State) : memRead s 0x004 4 = .ok paramWord := rfl
theorem memRead_status (s : State) : memRead s 0x00C 4 = .ok (statusWord s) := rfl
theorem memRead_intEn (s : State) : memRead s 0x010 4 = .ok (intEnWord s) := rfl
theorem memRead_intStat (s : State) : memRead s 0x014 4 = .ok (intStatWord s) := rfl
theorem memWrite_cmd (w : Word) (s : State) : memWrite 0x008 4 w s = acceptWord w s := rfl
theorem memWrite_intEn (w : Word) (s : State) : memWrite 0x010 4 w s = .next (writeIntEn w s) := rfl
theorem memWrite_intStat (w : Word) (s : State) : memWrite 0x014 4 w s = .next (clearIntStat w s) := rfl

/-- R55: with no command in flight no write is held. -/
theorem heldWrite_of_idle {s : State} (hi : s.inflight = none) (off : Offset) (size : Nat) :
    heldWrite s off size = false := by
  simp [heldWrite, busy, hi]

/-- R55: only a CMD write is held. -/
theorem heldWrite_of_ne_cmd (s : State) {off : Offset} (hoff : off ≠ 0x008) (size : Nat) :
    heldWrite s off size = false := by
  have hcmd : checkAccess off size ≠ .ok .cmd := fun h => hoff (checkAccess_cmd h).1
  simp [heldWrite, hcmd]

/-- R39: the counters that pass with a step are read by no access. -/
@[simp] theorem memRead_advance (s : State) (off : Offset) (size : Nat) :
    memRead (advance s) off size = memRead s off size := rfl

/-- R52, R54: the step at a read at the host's turn. -/
theorem step_read {s : State} {off : Offset} {size : Nat} {rest : List HostStmt} {v : Word} (ht : hostTurn s)
    (hh : s.host = .read (s.base + off.toNat) size :: rest) (hv : memRead s off size = .ok v) :
    step s = .next { advance s with host := rest, reads := s.reads ++ [v] } := by
  rw [step_of_hostTurn ht, hostStep_read (s := advance s) hh, memRead_advance, hv]
  simp [logRead, popHost, hh]

/-- R51, R54: the step at a write that is not held, at the host's turn. -/
theorem step_write {s : State} {off : Offset} {size : Nat} {w : Word} {rest : List HostStmt} (ht : hostTurn s)
    (hh : s.host = .write (s.base + off.toNat) size w :: rest) (hheld : heldWrite s off size = false) :
    step s = memWrite off size w { advance s with host := rest } := by
  have hheld' : heldWrite (advance s) off size = false := hheld
  rw [step_of_hostTurn ht, hostStep_write (s := advance s) hh, hheld']
  simp [popHost, hh]

/-- R95: the acceptance of a command's word is the command's own step, the error lock included. -/
theorem acceptWord_of_decode {s : State} {w : Word} {i : Instr} (hi : s.inflight = none) (hd : decode w = .ok i) :
    acceptWord w s = exec i s := by
  cases hl : locked s (opField w) with
  | true =>
    have hlock : acceptCommand i s = s := acceptCommand_locked (by rw [decode_opcode hd, hl])
    simp [acceptWord, hl, exec_idle hi, hlock]
  | false => simp [acceptWord, hl, hd]

/-- R31, R95: a command word goes in flight exactly when it passes every check of acceptance and is not NOP. -/
theorem busy_acceptCommand_iff {s : State} (hi : s.inflight = none) (i : Instr) :
    busy (acceptCommand i s) = true ↔
      (locked s i.opcode = false ∧ legal s.phase i = true ∧ inRange i = true ∧ i ≠ .nop) := by
  unfold acceptCommand
  split_ifs <;> simp_all [busy]

/-! ## The effects of the commands -/

/-- R36: no command's effect touches ERR_P. -/
@[simp] theorem effectOf_errP (i : Instr) (b : Block) (s : State) : (effectOf i b s).errP = s.errP := by
  cases i <;> rfl

/-- R25, R32: only SQUEEZE and INIT write OUT and OUT_VALID. -/
theorem effectOf_output {i : Instr} (hinit : i ≠ .init) (hsqueeze : ∀ c, i ≠ .squeeze c) (b : Block) (s : State) :
    (effectOf i b s).out = s.out ∧ (effectOf i b s).outValid = s.outValid := by
  cases i with
  | init => exact absurd rfl hinit
  | squeeze c => exact absurd rfl (hsqueeze c)
  | _ => exact ⟨rfl, rfl⟩

/-- R33, R93: only INIT and ABSORB_FINAL change the phase. -/
theorem effectOf_phase {i : Instr} (hinit : i ≠ .init) (hfinal : ∀ n, i ≠ .absorbFinal n) (b : Block) (s : State) :
    (effectOf i b s).phase = s.phase := by
  cases i with
  | init => exact absurd rfl hinit
  | absorbFinal n => exact absurd rfl (hfinal n)
  | _ => rfl

/-- R71: a rate byte lies in one of the lanes 0 to 16, so XORing it in leaves every capacity lane. -/
theorem xorStateByte_capacity (A : Lanes) (p : Fin 136) (v : Byte) {k : Nat} (hk : k < 25) (hcap : 17 ≤ k) :
    (xorStateByte A (ratePos p) v)[k] = A[k] := by
  have hlane : (ratePos p).val / 8 ≠ k := by
    have hp := p.isLt
    simp only [ratePos]
    omega
  simp [xorStateByte, Vector.getElem_set_ne _ _ hlane]

/-- R71: no XorRate writes a capacity lane. -/
theorem xorRate_capacity (A : Lanes) (data : Block) (off cnt : Nat) {k : Nat} (hk : k < 25) (hcap : 17 ≤ k) :
    (xorRate A data off cnt)[k] = A[k] := by
  unfold xorRate
  refine List.foldlRecOn (motive := fun B : Lanes => B[k] = A[k]) (List.finRange 136) _ rfl fun B hB p _ => ?_
  split
  next => rw [xorStateByte_capacity B p _ hk hcap, hB]
  next => exact hB

/-! ## What a command's step leaves unchanged -/

/-- The next states of a command's step: accepted, completed, or unchanged where it is held or NOP. -/
theorem exec_eq_next {i : Instr} {s t : State} (h : exec i s = .next t) :
    (s.inflight = none ∧ t = acceptCommand i s) ∨
    (∃ fl, s.inflight = some fl ∧ i ≠ .nop ∧ t = finish (effectOf i fl.snap s)) ∨ t = s := by
  obtain ⟨hi, h1⟩ | ⟨fl, hi, -, hn, h1⟩ | ⟨-, h1⟩ := exec_cases i s <;>
    have ht := (Host.Outcome.next.inj (h1.symm.trans h)).symm
  · exact .inl ⟨hi, ht⟩
  · exact .inr (.inl ⟨fl, hi, hn, ht⟩)
  · exact .inr (.inr ht)

/-- R24, R35, R43: two states agree in BASE, BUF, the interrupt enables, the model's inputs that no command reads, and
what the host has read. -/
structure SameSurroundings (s t : State) : Prop where
  base : t.base = s.base
  buf : t.buf = s.buf
  doneIE : t.doneIE = s.doneIE
  errIE : t.errIE = s.errIE
  host : t.host = s.host
  secondHost : t.secondHost = s.secondHost
  resetPin : t.resetPin = s.resetPin
  reads : t.reads = s.reads
  tick : t.tick = s.tick

theorem SameSurroundings.refl (s : State) : SameSurroundings s s := ⟨rfl, rfl, rfl, rfl, rfl, rfl, rfl, rfl, rfl⟩

theorem acceptCommand_sameSurroundings (i : Instr) (s : State) : SameSurroundings s (acceptCommand i s) := by
  obtain h | ⟨-, -, h⟩ | ⟨-, -, -, h⟩ | ⟨-, -, -, -, h⟩ := acceptCommand_cases i s <;> rw [h]
  · exact .refl s
  all_goals exact ⟨rfl, rfl, rfl, rfl, rfl, rfl, rfl, rfl, rfl⟩

theorem effectOf_sameSurroundings (i : Instr) (b : Block) (s : State) : SameSurroundings s (effectOf i b s) := by
  cases i <;> exact ⟨rfl, rfl, rfl, rfl, rfl, rfl, rfl, rfl, rfl⟩

theorem exec_sameSurroundings {i : Instr} {s t : State} (h : exec i s = .next t) : SameSurroundings s t := by
  obtain ⟨-, rfl⟩ | ⟨fl, -, -, rfl⟩ | rfl := exec_eq_next h
  · exact acceptCommand_sameSurroundings i s
  · obtain ⟨h1, h2, h3, h4, h5, h6, h7, h8, h9⟩ := effectOf_sameSurroundings i fl.snap s
    exact ⟨h1, h2, h3, h4, h5, h6, h7, h8, h9⟩
  · exact .refl _

/-- R70, R86, R87, R89: acceptance changes no lane and no phase. -/
theorem acceptCommand_lanes_phase (i : Instr) (s : State) :
    (acceptCommand i s).lanes = s.lanes ∧ (acceptCommand i s).phase = s.phase := by
  obtain h | ⟨-, -, h⟩ | ⟨-, -, -, h⟩ | ⟨-, -, -, -, h⟩ := acceptCommand_cases i s <;> rw [h] <;> exact ⟨rfl, rfl⟩

/-- R103: the error lock discards every command but NOP and INIT. -/
theorem locked_of_error {s : State} (herr : s.err = true) {i : Instr} (hnop : i ≠ .nop) (hinit : i ≠ .init) :
    locked s i.opcode = true := by
  cases i <;> simp_all [locked, Instr.opcode]

/-- R25, R102: acceptance writes OUT and OUT_VALID only where it raises ERR, and under the error lock only an INIT's
could. -/
theorem acceptCommand_output {i : Instr} {s : State} (hinit : i ≠ .init)
    (herr : s.err = true ∨ (acceptCommand i s).err = false) :
    (acceptCommand i s).out = s.out ∧ (acceptCommand i s).outValid = s.outValid := by
  by_cases hnop : i = .nop
  · simp [hnop]
  · obtain hs | ht := herr
    · simp [acceptCommand_locked (locked_of_error hs hnop hinit)]
    · obtain h | ⟨-, -, h⟩ | ⟨-, -, -, h⟩ | ⟨-, -, -, -, h⟩ := acceptCommand_cases i s <;> rw [h] at ht ⊢
      · exact ⟨rfl, rfl⟩
      · simp at ht
      · simp at ht
      · exact ⟨rfl, rfl⟩

/-- R49, R50: the bytes of the register map are those of BUF and OUT, BUF's below 0x200. -/
theorem byteAt_congr {s t : State} (hbuf : t.buf = s.buf) (hout : t.out = s.out) (a : Nat) :
    byteAt t a = byteAt s a := by
  simp only [byteAt, hbuf, hout]

theorem byteAt_of_lt_out {s t : State} (hbuf : t.buf = s.buf) {a : Nat} (ha : a < 0x200) :
    byteAt t a = byteAt s a := by
  have hlow : ¬ (0x200 ≤ a ∧ a < 0x288) := by omega
  simp only [byteAt, hbuf, if_neg hlow]

/-! ## The sponge's fields -/

/-- R22, R25, R32 to R34: two states agree in the matrix, OUT, OUT_VALID, the phase and the error. -/
structure SameSponge (s t : State) : Prop where
  lanes : t.lanes = s.lanes
  out : t.out = s.out
  outValid : t.outValid = s.outValid
  phase : t.phase = s.phase
  err : t.err = s.err
  errCode : t.errCode = s.errCode
  errOp : t.errOp = s.errOp

/-- R51, R95: a host step leaves the sponge's fields, unless it accepts a word that records an error. -/
theorem hostStep_sponge {s t : State} (h : hostStep s = .next t) :
    SameSponge s t ∨
    ∃ w rest e, s.host = .write (s.base + 0x008) 4 w :: rest ∧ s.inflight = none ∧
      t = recordError e (opField w) (popHost s) := by
  obtain rfl | ⟨v, rfl⟩ | rfl | ⟨w, rfl⟩ | ⟨w, rfl⟩ | ⟨j, w, rfl⟩ | ⟨w, rest, hh, hi, ha⟩ := hostStep_next h
  case inr.inr.inr.inr.inr.inr =>
    obtain rfl | ⟨e, -, rfl⟩ | ⟨i, -, -, -, -, -, rfl⟩ := acceptWord_next (s := popHost s) hi ha
    · exact .inl ⟨rfl, rfl, rfl, rfl, rfl, rfl, rfl⟩
    · exact .inr ⟨w, rest, e, hh, hi, rfl⟩
    · exact .inl ⟨rfl, rfl, rfl, rfl, rfl, rfl, rfl⟩
  all_goals exact .inl ⟨rfl, rfl, rfl, rfl, rfl, rfl, rfl⟩

/-- Everything a step can do to the sponge's fields: a reset, the effect of the command that completes, a recorded
error, or nothing. -/
theorem step_sponge {s t : State} (h : step s = .next t) :
    (resetDue s = true ∧ t = applyReset s) ∨
    (∃ fl i, s.inflight = some fl ∧ s.latLeft = 0 ∧ decode fl.cmd = .ok i ∧
      t = finish (effectOf i fl.snap (advance s))) ∨
    (∃ w rest e, s.host = .write (s.base + 0x008) 4 w :: rest ∧ s.inflight = none ∧
      t = recordError e (opField w) (popHost (advance s))) ∨
    SameSponge s t := by
  obtain ⟨-, ⟨hr, ht⟩ | ⟨-, hlat, fl, i, hi, hd, he⟩ | ⟨-, -, hh⟩⟩ := step_next h
  · exact .inl ⟨hr, ht⟩
  · obtain ⟨-, rfl⟩ | ⟨-, ht⟩ := exec_completes (s := advance s) hi hd he
    · exact .inr (.inr (.inr ⟨rfl, rfl, rfl, rfl, rfl, rfl, rfl⟩))
    · exact .inr (.inl ⟨fl, i, hi, hlat, hd, ht⟩)
  · obtain ⟨h1, h2, h3, h4, h5, h6, h7⟩ | herr := hostStep_sponge hh
    · exact .inr (.inr (.inr ⟨h1, h2, h3, h4, h5, h6, h7⟩))
    · exact .inr (.inr (.inl herr))

/-! ## The word of INIT -/

/-- R58: a word is its five fields. -/
theorem word_eq_of_fields {w v : Word} (hop : opField w = opField v) (hrsv0 : rsv0Field w = rsv0Field v)
    (hfa : faField w = faField v) (hfb : fbField w = fbField v) (hrsv1 : rsv1Field w = rsv1Field v) : w = v := by
  simp only [opField, rsv0Field, faField, fbField, rsv1Field, BitVec.toNat_eq, BitVec.extractLsb'_toNat,
    Nat.shiftRight_eq_div_pow] at *
  omega

/-- R60: only the word 0x00000001 decodes to INIT. -/
theorem eq_one_of_decode_init {w : Word} (h : decode w = .ok .init) : w = 0x00000001 := by
  have hop : opField w = 0x1 := (decode_opcode h).symm
  have hfields : rsv0Field w = 0 ∧ rsv1Field w = 0 ∧ faField w = 0 ∧ fbField w = 0 := by
    simp only [decode, hop, commandOf, usesFa, usesFb] at h
    split_ifs at h with hrsv hfa hfb <;> simp_all
  obtain ⟨hrsv0, hrsv1, hfa, hfb⟩ := hfields
  exact word_eq_of_fields hop hrsv0 hfa hfb hrsv1

end Sys2Proof.Machine

namespace Sys2Proof.Proofs
open Sys2Proof.Machine

/-- Settles O30: a command in flight while ERR = 1 is INIT, and recording an error once more keeps the first one. -/
theorem errorStaysUntilInitCompletes : Obligations.ErrorStaysUntilInitCompletes := by
  intro s t hinv herr hstep hreset
  obtain ⟨hr, -⟩ | ⟨fl, i, hi, hlat, hd, rfl⟩ | ⟨w, rest, e, -, -, rfl⟩ | hsame := step_sponge hstep
  · simp [hreset] at hr
  · obtain ⟨i', hd', -, -, -, hinit⟩ := hinv.inflight_accepted fl hi
    obtain rfl : i' = i := Except.ok.inj (hd'.symm.trans hd)
    obtain rfl := hinit herr
    obtain ⟨cmd, snap⟩ := fl
    obtain rfl : cmd = 0x00000001 := eq_one_of_decode_init hd
    exact .inl ⟨snap, hi, hlat, rfl⟩
  · exact .inr ⟨rfl, by simp [herr], by simp [herr], rfl, rfl, rfl, rfl⟩
  · have hvalid := hinv.error_no_output herr
    exact .inr ⟨hsame.err.trans herr, hsame.errCode, hsame.errOp,
      hsame.out.trans (hinv.invalid_out_zero hvalid), hsame.outValid.trans hvalid, hsame.lanes, hsame.phase⟩

/-- Settles O56: of the commands only NOP and SQUEEZE leave every lane, and XOR_RATE leaves the capacity. -/
theorem capacityChangesOnlyByPermutationAndInit : Obligations.CapacityChangesOnlyByPermutationAndInit := by
  intro s t hstep k hk hne
  obtain ⟨hr, -⟩ | ⟨fl, i, hi, hlat, hd, rfl⟩ | ⟨w, rest, e, -, -, rfl⟩ | hsame := step_sponge hstep
  · exact .inl hr
  · refine .inr ⟨fl, i, hi, hlat, hd, ?_⟩
    cases i with
    | nop => exact absurd rfl hne
    | squeeze c => exact absurd rfl hne
    | xorRate o c =>
      have hrate : k < 17 := by
        by_contra hcap
        exact hne (xorRate_capacity s.lanes fl.snap o c hk (by omega))
      exact .inr (.inr (.inr (.inr ⟨hrate, o, c, rfl⟩)))
    | init => exact .inl rfl
    | permute => exact .inr (.inl rfl)
    | absorb => exact .inr (.inr (.inl rfl))
    | absorbFinal n => exact .inr (.inr (.inr (.inl ⟨n, rfl⟩)))
  · exact absurd rfl hne
  · exact absurd (by rw [hsame.lanes]) hne

/-- Settles O38: acceptance at most puts the command in flight or records an error; completion is the command's effect;
a held command changes nothing. -/
theorem frameOfEveryCommand : Obligations.FrameOfEveryCommand := by
  intro i s t he
  have hsame := exec_sameSurroundings he
  refine ⟨hsame.base, hsame.buf, hsame.doneIE, hsame.errIE, hsame.host, hsame.secondHost, hsame.resetPin, hsame.reads,
    hsame.tick, fun a ha => byteAt_of_lt_out hsame.buf ha, ?_⟩
  obtain ⟨hi, rfl⟩ | ⟨fl, hi, hn, rfl⟩ | rfl := exec_eq_next he
  · obtain ⟨hlanes, hphase⟩ := acceptCommand_lanes_phase i s
    refine ⟨fun _ => ⟨hlanes, hphase⟩, fun _ => hlanes, fun _ k hk _ => by simp [hlanes], fun _ _ => hphase, ?_⟩
    intro hinit _ herr
    obtain ⟨hout, hvalid⟩ := acceptCommand_output hinit herr
    exact ⟨hvalid, byteAt_congr hsame.buf hout⟩
  · refine ⟨fun hnone => by simp [hi] at hnone, ?_, ?_, fun hinit hfinal => effectOf_phase hinit hfinal fl.snap s, ?_⟩
    · rintro (rfl | ⟨c, rfl⟩)
      · exact absurd rfl hn
      · rfl
    · rintro ⟨o, c, rfl⟩ k hk hcap
      exact xorRate_capacity s.lanes fl.snap o c hk hcap
    · intro hinit hsqueeze _
      obtain ⟨hout, hvalid⟩ := effectOf_output hinit hsqueeze fl.snap s
      exact ⟨hvalid, byteAt_congr hsame.buf hout⟩
  · exact ⟨fun _ => ⟨rfl, rfl⟩, fun _ => rfl, fun _ _ _ _ => rfl, fun _ _ => rfl, fun _ _ _ => ⟨rfl, fun _ => rfl⟩⟩

/-- Settles O54: of the commands only INIT and ABSORB_FINAL write the phase. -/
theorem phaseChangesOnlyByInitAbsorbFinalAndReset : Obligations.PhaseChangesOnlyByInitAbsorbFinalAndReset := by
  intro s t hstep hne
  obtain ⟨hr, rfl⟩ | ⟨fl, i, hi, hlat, hd, rfl⟩ | ⟨w, rest, e, -, -, rfl⟩ | hsame := step_sponge hstep
  · exact .inl ⟨hr, rfl⟩
  · refine .inr ⟨fl, hi, hlat, ?_⟩
    by_cases hinit : i = .init
    · subst hinit
      exact .inl ⟨hd, rfl⟩
    · by_cases hfinal : ∃ n, i = .absorbFinal n
      · obtain ⟨n, rfl⟩ := hfinal
        exact .inr ⟨n, hd, rfl⟩
      · exact absurd (effectOf_phase hinit (by simpa using hfinal) fl.snap (advance s)) hne
  · exact absurd rfl hne
  · exact absurd hsame.phase hne

/-- Settles O55: of the commands only SQUEEZE and INIT write OUT, and a recorded error clears it. -/
theorem outputIsWrittenOnlyBySqueezeInitAndErrors : Obligations.OutputIsWrittenOnlyBySqueezeInitAndErrors := by
  intro s t hstep hne
  obtain ⟨hr, rfl⟩ | ⟨fl, i, hi, hlat, hd, rfl⟩ | ⟨w, rest, e, hh, hi, rfl⟩ | hsame := step_sponge hstep
  · exact .inr (.inr ⟨hr, rfl⟩)
  · refine .inl ⟨fl, hi, hlat, ?_⟩
    by_cases hinit : i = .init
    · subst hinit
      exact .inr ⟨hd, rfl, rfl⟩
    · by_cases hsqueeze : ∃ c, i = .squeeze c
      · obtain ⟨c, rfl⟩ := hsqueeze
        exact .inl ⟨c, hd, rfl, rfl⟩
      · exact absurd (effectOf_output hinit (by simpa using hsqueeze) fl.snap (advance s)).1 hne
  · exact .inr (.inl ⟨w, rest, hh, hi, rfl, rfl, rfl⟩)
  · exact absurd hsame.out hne

/-- Settles O60: of the commands SQUEEZE sets OUT_VALID and INIT clears it, as a recorded error and a reset do. -/
theorem outputValidFollowsSqueezeInitAndErrors : Obligations.OutputValidFollowsSqueezeInitAndErrors := by
  intro s t hstep
  obtain ⟨hr, rfl⟩ | ⟨fl, i, hi, hlat, hd, rfl⟩ | ⟨w, rest, e, hh, hi, rfl⟩ | hsame := step_sponge hstep
  · exact ⟨fun _ hrise => by simp at hrise, fun _ _ => .inl hr⟩
  · constructor
    · intro hlow hrise
      cases i with
      | squeeze c => exact ⟨fl, c, hi, hlat, hd⟩
      | init => simp [effectOf] at hrise
      | _ => simp [effectOf, hlow] at hrise
    · intro hhigh hfall
      cases i with
      | init => exact .inr (.inl ⟨fl, hi, hlat, hd⟩)
      | squeeze c => simp [effectOf] at hfall
      | _ => simp [effectOf, hhigh] at hfall
  · exact ⟨fun _ hrise => by simp at hrise, fun _ _ => .inr (.inr ⟨w, rest, hh, hi, rfl, rfl⟩)⟩
  · constructor <;> intro hbefore hafter <;> simp [hsame.outValid, hbefore] at hafter

/-- Settles O19: the word is the sum of its fields, and a read of it is a read without a side effect. -/
theorem statusWordHoldsItsFields : Obligations.StatusWordHoldsItsFields := by
  refine ⟨rfl, fun s => ⟨toNat_statusWord s, (statusWord_reserved s).1, (statusWord_reserved s).2, ?_⟩⟩
  intro rest ht hh
  exact step_read (off := 0x00C) ht hh (memRead_status s)

/-- Settles O20: a word goes in flight at its acceptance alone, and completion takes the one in flight out. -/
theorem busyIsThatACommandIsInFlight : Obligations.BusyIsThatACommandIsInFlight := by
  refine ⟨rfl, getLsbD_statusWord_zero, ?accepted, ?refused, ?completed⟩
  case accepted =>
    intro i s t hi he
    rw [exec_idle hi] at he
    obtain rfl := Host.Outcome.next.inj he
    exact busy_acceptCommand_iff hi i
  case refused =>
    intro w e s t hi hd ha
    obtain rfl | ⟨e', -, rfl⟩ | ⟨i, -, hd', -⟩ := acceptWord_next hi ha
    · simp [busy, hi]
    · simp [busy, hi]
    · simp [hd] at hd'
  case completed =>
    intro i s t fl hi hd hn he
    rw [exec_inflight hi hd hn] at he
    obtain rfl := Host.Outcome.next.inj he
    rfl

/-- Settles O21: a write of INT_EN is never held, and the word read back is the two enables. -/
theorem interruptEnableRegister : Obligations.InterruptEnableRegister := by
  refine ⟨rfl, fun s w => ⟨?_, memWrite_intEn w s, intEnWord s, memRead_intEn s, getLsbD_flagPair _ _⟩⟩
  intro rest ht hh
  rw [step_write (off := 0x010) ht hh (heldWrite_of_ne_cmd s (by decide) 4), memWrite_intEn]
  rfl

/-- Settles O22: completion sets DONE_P, a recorded error sets ERR_P, and a write of INT_STAT, never held, clears. -/
theorem interruptStatusRegister : Obligations.InterruptStatusRegister := by
  refine ⟨rfl, ?completed, fun e op s => ⟨rfl, rfl⟩, fun s w =>
    ⟨?written, memWrite_intStat w s, intStatWord s, memRead_intStat s, getLsbD_flagPair _ _⟩⟩
  case completed =>
    intro i s t fl hi hd hn he
    rw [exec_inflight hi hd hn] at he
    obtain rfl := Host.Outcome.next.inj he
    exact ⟨rfl, by simp⟩
  case written =>
    intro rest ht hh
    rw [step_write (off := 0x014) ht hh (heldWrite_of_ne_cmd s (by decide) 4), memWrite_intStat]
    rfl

/-- Settles O7: with no command in flight the write is performed, and acceptance of a command's word is its step. -/
theorem stepRunsThePresentedCommand : Obligations.StepRunsThePresentedCommand := by
  intro s w i rest hu hi hh hd
  rw [step_write (off := 0x008) (hostTurn_of_idle hu hi) hh (heldWrite_of_idle hi _ _), memWrite_cmd,
    advance_of_idle hi]
  exact acceptWord_of_decode hi hd

/-- Settles O18: each register is read as its word, and the two interrupt registers are two flags. -/
theorem registerReadsReturnTheRegisterWords : Obligations.RegisterReadsReturnTheRegisterWords := fun s =>
  ⟨memRead_id s, memRead_param s, memRead_status s, ⟨_, memRead_intEn s, toNat_flagPair _ _⟩,
    ⟨_, memRead_intStat s, toNat_flagPair _ _⟩⟩

/-- Settles O23: at reset no bit is pending, and the level is the disjunction of R37. -/
theorem interruptOutputLevel : Obligations.InterruptOutputLevel :=
  ⟨rfl, fun s => by simp [irq]⟩

end Sys2Proof.Proofs

/-! The register map at the host port, what a read and a write of a target do, and the bytes of the two buffers
(spec/20_memory.md R43 to R53). -/

namespace Sys2Proof.Machine

/-! ## The register map -/

/-- R44: the offset at which the map holds a target. -/
def Target.offset : Target → Nat
  | .id => 0x000
  | .param => 0x004
  | .cmd => 0x008
  | .status => 0x00C
  | .intEn => 0x010
  | .intStat => 0x014
  | .bufWord j => 0x100 + 4 * j.val
  | .outWord j => 0x200 + 4 * j.val

/-- R44: the map is given by the targets' offsets. -/
theorem targetOf_eq_some {off : Offset} {t : Target} : targetOf off = some t ↔ off.toNat = t.offset := by
  constructor
  · intro h
    simp only [targetOf] at h
    split_ifs at h <;> obtain rfl := Option.some.inj h <;> simp only [Target.offset] <;> omega
  · intro h
    cases t with
    | bufWord j =>
      have halign : (0x100 + 4 * j.val) % 4 = 0 := by omega
      have hreg : ∀ n < 0x100, 0x100 + 4 * j.val ≠ n := by omega
      have hend : 0x100 + 4 * j.val < 0x188 := by omega
      simp [targetOf, h, Target.offset, halign, hreg, hend]
    | outWord j =>
      have halign : (0x200 + 4 * j.val) % 4 = 0 := by omega
      have hreg : ∀ n < 0x100, 0x200 + 4 * j.val ≠ n := by omega
      have hbuf : ¬ 0x200 + 4 * j.val < 0x188 := by omega
      have hend : 0x200 + 4 * j.val < 0x288 := by omega
      simp [targetOf, h, Target.offset, halign, hreg, hbuf, hend]
    | _ => simp [targetOf, h, Target.offset]

/-- R44, R45: the access check passes a 32-bit access at the offset of a target, and no other. -/
theorem checkAccess_eq_ok {off : Offset} {size : Nat} {t : Target} :
    checkAccess off size = .ok t ↔ size = 4 ∧ off.toNat = t.offset := by
  rw [← targetOf_eq_some]
  unfold checkAccess
  split_ifs with hsize halign
  · simp [hsize]
  · simp [targetOf, halign]
  · have hsize : size = 4 := by simpa using hsize
    cases targetOf off <;> simp [hsize]

/-- R44, R45: every target but CMD may be read. -/
theorem readable_iff_target {off : Offset} {size : Nat} :
    readable off.toNat size ↔ ∃ t, t ≠ .cmd ∧ checkAccess off size = .ok t := by
  simp only [checkAccess_eq_ok]
  constructor
  · rintro ⟨hsize, halign, hreg | hbuf | hout⟩
    · simp only [List.mem_cons, List.not_mem_nil, or_false] at hreg
      obtain h | h | h | h | h := hreg
      · exact ⟨.id, by simp, hsize, h⟩
      · exact ⟨.param, by simp, hsize, h⟩
      · exact ⟨.status, by simp, hsize, h⟩
      · exact ⟨.intEn, by simp, hsize, h⟩
      · exact ⟨.intStat, by simp, hsize, h⟩
    · refine ⟨.bufWord ⟨(off.toNat - 0x100) / 4, by omega⟩, by simp, hsize, ?_⟩
      simp only [Target.offset]
      omega
    · refine ⟨.outWord ⟨(off.toNat - 0x200) / 4, by omega⟩, by simp, hsize, ?_⟩
      simp only [Target.offset]
      omega
  · rintro ⟨t, hcmd, hsize, hoff⟩
    rw [readable, hoff]
    cases t with
    | cmd => exact absurd rfl hcmd
    | bufWord j =>
      simp only [Target.offset]
      exact ⟨hsize, by omega, .inr (.inl (by omega))⟩
    | outWord j =>
      simp only [Target.offset]
      exact ⟨hsize, by omega, .inr (.inr (by omega))⟩
    | _ => simp [Target.offset, hsize]

/-- R44, R45: CMD, INT_EN, INT_STAT and the words of BUF may be written. -/
theorem writable_iff_target {off : Offset} {size : Nat} :
    writable off.toNat size ↔
      checkAccess off size = .ok .cmd ∨ checkAccess off size = .ok .intEn ∨ checkAccess off size = .ok .intStat ∨
        ∃ j, checkAccess off size = .ok (.bufWord j) := by
  simp only [checkAccess_eq_ok]
  constructor
  · rintro ⟨hsize, halign, hreg | hbuf⟩
    · simp only [List.mem_cons, List.not_mem_nil, or_false] at hreg
      obtain h | h | h := hreg
      · exact .inl ⟨hsize, h⟩
      · exact .inr (.inl ⟨hsize, h⟩)
      · exact .inr (.inr (.inl ⟨hsize, h⟩))
    · refine .inr (.inr (.inr ⟨⟨(off.toNat - 0x100) / 4, by omega⟩, hsize, ?_⟩))
      simp only [Target.offset]
      omega
  · unfold writable
    rintro (⟨hsize, h⟩ | ⟨hsize, h⟩ | ⟨hsize, h⟩ | ⟨j, hsize, h⟩) <;> simp only [h, Target.offset]
    · simp [hsize]
    · simp [hsize]
    · simp [hsize]
    · exact ⟨hsize, by omega, .inr (by omega)⟩

theorem checkAccess_bufWord (j : Fin 34) :
    checkAccess (BitVec.ofNat 12 (0x100 + 4 * j.val)) 4 = .ok (.bufWord j) := by
  rw [checkAccess_eq_ok]
  exact ⟨rfl, Nat.mod_eq_of_lt (by omega)⟩

theorem checkAccess_outWord (j : Fin 34) :
    checkAccess (BitVec.ofNat 12 (0x200 + 4 * j.val)) 4 = .ok (.outWord j) := by
  rw [checkAccess_eq_ok]
  exact ⟨rfl, Nat.mod_eq_of_lt (by omega)⟩

/-! ## What a read and a write of a target do -/

theorem memRead_bufWord (s : State) (j : Fin 34) :
    memRead s (BitVec.ofNat 12 (0x100 + 4 * j.val)) 4 = .ok (bufferWord s.buf j) := by
  rw [memRead, checkAccess_bufWord]

theorem memRead_outWord (s : State) (j : Fin 34) :
    memRead s (BitVec.ofNat 12 (0x200 + 4 * j.val)) 4 = .ok (bufferWord s.out j) := by
  rw [memRead, checkAccess_outWord]

theorem memWrite_bufWord (j : Fin 34) (w : Word) (s : State) :
    memWrite (BitVec.ofNat 12 (0x100 + 4 * j.val)) 4 w s = .next (writeBufWord j w s) := by
  rw [memWrite, checkAccess_bufWord]

/-- R45, R47: a read returns a word exactly where the register map lets the offset be read. -/
theorem memRead_answers_iff_readable {s : State} {off : Offset} {size : Nat} :
    (∃ v, memRead s off size = .ok v) ↔ readable off.toNat size := by
  rw [readable_iff_target]
  unfold memRead
  cases hc : checkAccess off size with
  | error f => simp
  | ok t => cases t <;> simp

/-- R95: the acceptance of a word always has a next state: an error is one too. -/
theorem acceptWord_answers (w : Word) (s : State) : ∃ t, acceptWord w s = .next t := by
  unfold acceptWord
  split_ifs
  · exact ⟨_, rfl⟩
  · cases decode w with
    | error e => exact ⟨_, rfl⟩
    | ok i => exact exec_next i s

/-- R45, R47: a write is an error exactly where the register map does not let the offset be written. -/
theorem memWrite_faults_iff {off : Offset} {size : Nat} {w : Word} {s : State} :
    (∃ f, memWrite off size w s = .fault f) ↔ ¬ writable off.toNat size := by
  obtain ⟨t, ht⟩ := acceptWord_answers w s
  rw [writable_iff_target]
  unfold memWrite
  cases hc : checkAccess off size with
  | error f => simp
  | ok target => cases target <;> simp [ht]

/-- R55: a write that is held is a 32-bit write of CMD, which the register map lets be written. -/
theorem writable_of_heldWrite {s : State} {off : Offset} {size : Nat} (h : heldWrite s off size = true) :
    writable off.toNat size := by
  obtain ⟨-, hcmd⟩ : busy s = true ∧ checkAccess off size = .ok .cmd := by simpa [heldWrite] using h
  exact writable_iff_target.2 (.inl hcmd)

/-- R46: at the host's turn a read faults exactly where the register map does not let the offset be read. -/
theorem step_read_faults_iff {s : State} {off : Offset} {size : Nat} {rest : List HostStmt} (ht : hostTurn s)
    (hh : s.host = .read (s.base + off.toNat) size :: rest) :
    (∃ f, step s = .fault f) ↔ ¬ readable off.toNat size := by
  rw [← memRead_answers_iff_readable (s := s), step_of_hostTurn ht, hostStep_read (s := advance s) hh, memRead_advance]
  cases memRead s off size <;> simp

/-- R46, R55: at the host's turn a write faults exactly where the register map does not let the offset be written; a
write that is held is let. -/
theorem step_write_faults_iff {s : State} {off : Offset} {size : Nat} {w : Word} {rest : List HostStmt}
    (ht : hostTurn s) (hh : s.host = .write (s.base + off.toNat) size w :: rest) :
    (∃ f, step s = .fault f) ↔ ¬ writable off.toNat size := by
  cases hheld : heldWrite s off size with
  | false => rw [step_write ht hh hheld, memWrite_faults_iff]
  | true =>
    have hheld' : heldWrite (advance s) off size = true := hheld
    rw [step_of_hostTurn ht, hostStep_write (s := advance s) hh, hheld']
    simp [writable_of_heldWrite hheld]

/-- R43: at the host's turn an access outside the block's window is refused. -/
theorem step_outside {s : State} {addr size : Nat} {w : Word} {rest : List HostStmt} (ht : hostTurn s)
    (haddr : addr < s.base ∨ s.base + 0x1000 ≤ addr)
    (hh : s.host = .read addr size :: rest ∨ s.host = .write addr size w :: rest) :
    step s = .refused .outsideBlock := by
  have hoff : offsetOf s.base addr = none := offsetOf_eq_none.2 haddr
  rw [step_of_hostTurn ht]
  obtain hh | hh := hh <;> simp [hostStep, hh, hoff]

/-! ## The bytes of the two buffers -/

theorem byteAt_buf (s : State) {p : Nat} (hp : p < 136) : byteAt s (0x100 + p) = some s.buf[p] := by
  have hend : 0x100 + p < 0x188 := by omega
  simp [byteAt, hend, hp]

theorem byteAt_out (s : State) {p : Nat} (hp : p < 136) : byteAt s (0x200 + p) = some s.out[p] := by
  have hend : 0x200 + p < 0x288 := by omega
  have hbuf : ¬ 0x200 + p < 0x188 := by omega
  simp [byteAt, hend, hbuf, hp]

/-- R49: byte `k` of BUF word `j` after it is written. -/
theorem byteAt_writeBufWord_inside (j : Fin 34) (w : Word) (s : State) {k : Nat} (hk : k < 4) :
    byteAt (writeBufWord j w s) (0x100 + 4 * j.val + k) = some (w.extractLsb' (8 * k) 8) := by
  rw [Nat.add_assoc, byteAt_buf _ (by omega), ← setBufferWord_inside s.buf j w k hk]
  rfl

/-- R49: every other byte after it is written. -/
theorem byteAt_writeBufWord_outside (j : Fin 34) (w : Word) (s : State) {a : Nat}
    (ha : a < 0x100 + 4 * j.val ∨ 0x100 + 4 * j.val + 4 ≤ a) : byteAt (writeBufWord j w s) a = byteAt s a := by
  by_cases hbuf : 0x100 ≤ a ∧ a < 0x188
  · obtain ⟨p, rfl⟩ := Nat.exists_eq_add_of_le hbuf.1
    have hp : p < 136 := by omega
    rw [byteAt_buf _ hp, byteAt_buf _ hp, writeBufWord_buf, setBufferWord_outside _ _ _ _ hp (by omega)]
  · simp [byteAt, hbuf]

theorem byteAt_bufferWord_buf (s : State) (j : Fin 34) {k : Nat} (hk : k < 4) :
    byteAt s (0x100 + 4 * j.val + k) = some ((bufferWord s.buf j).extractLsb' (8 * k) 8) := by
  rw [Nat.add_assoc, byteAt_buf _ (by omega), bufferWord_byte _ _ _ hk]

theorem byteAt_bufferWord_out (s : State) (j : Fin 34) {k : Nat} (hk : k < 4) :
    byteAt s (0x200 + 4 * j.val + k) = some ((bufferWord s.out j).extractLsb' (8 * k) 8) := by
  rw [Nat.add_assoc, byteAt_out _ (by omega), bufferWord_byte _ _ _ hk]

end Sys2Proof.Machine

namespace Sys2Proof.Proofs
open Sys2Proof.Machine

/-- Settles O16: the register map's targets are exactly the offsets that pass the check, and acceptance never faults. -/
theorem busErrorsAreExactlyTheUnsupportedAccesses : Obligations.BusErrorsAreExactlyTheUnsupportedAccesses :=
  fun _ ht => ⟨fun _ _ _ hh => step_read_faults_iff ht hh, fun _ _ _ _ hh => step_write_faults_iff ht hh,
    fun _ _ _ _ haddr hh => step_outside ht haddr hh⟩

/-- Settles O17: a readable offset has a word, which the step gives to the host. -/
theorem readsHaveNoSideEffect : Obligations.ReadsHaveNoSideEffect := by
  intro s off size rest ht hh hread
  obtain ⟨v, hv⟩ := memRead_answers_iff_readable.2 hread
  exact ⟨v, hv, step_read ht hh hv⟩

/-- Settles O24: no BUF write is held, and the write and the read of a word act on its four bytes. -/
theorem bufferWriteStoresItsFourBytes : Obligations.BufferWriteStoresItsFourBytes := by
  intro s j w rest hj ht hh
  have hoff : (BitVec.ofNat 12 (0x100 + 4 * j)).toNat = 0x100 + 4 * j := Nat.mod_eq_of_lt (by omega)
  have hcmd : BitVec.ofNat 12 (0x100 + 4 * j) ≠ 0x008 := fun h => by simp [h] at hoff; omega
  have hstep : step s = .next (writeBufWord ⟨j, hj⟩ w { advance s with host := rest }) := by
    rw [step_write ht (by rw [hh, hoff]) (heldWrite_of_ne_cmd s hcmd 4)]
    exact memWrite_bufWord ⟨j, hj⟩ w _
  refine ⟨_, hstep, rfl, fun k hk => byteAt_writeBufWord_inside ⟨j, hj⟩ w _ hk, fun a ha => ?_,
    _, memRead_bufWord s ⟨j, hj⟩, fun k hk => byteAt_bufferWord_buf s ⟨j, hj⟩ hk⟩
  exact byteAt_writeBufWord_outside ⟨j, hj⟩ w _ ha

/-- Settles O25: an OUT word is readable, and its word is the four bytes of OUT. -/
theorem outputReadReturnsItsFourBytes : Obligations.OutputReadReturnsItsFourBytes := by
  intro s j rest hj ht hh
  have hoff : (BitVec.ofNat 12 (0x200 + 4 * j)).toNat = 0x200 + 4 * j := Nat.mod_eq_of_lt (by omega)
  exact ⟨_, step_read ht (by rw [hh, hoff]) (memRead_outWord s ⟨j, hj⟩),
    fun k hk => byteAt_bufferWord_out s ⟨j, hj⟩ hk⟩

end Sys2Proof.Proofs

/-! The invariant of every step, the hold of a CMD write and the snapshot of BUF (spec/20_memory.md R43, R55, R57). -/

namespace Sys2Proof.Machine

/-! ## A command's word and its encoding -/

/-- R58: the bits of the packed fields: each bit comes from one of them, and the reserved bits are 0. -/
theorem fields_packFields (fb fa : BitVec 8) (op : BitVec 4) :
    rsv0Field (packFields fb fa op) = 0 ∧ faField (packFields fb fa op) = fa ∧
      fbField (packFields fb fa op) = fb ∧ rsv1Field (packFields fb fa op) = 0 := by
  refine ⟨?_, ?_, ?_, ?_⟩
  all_goals
    apply BitVec.eq_of_getLsbD_eq
    intro n hn
    interval_cases n <;> simp [rsv0Field, faField, fbField, rsv1Field, packFields]

/-- R60, R67: a word that decodes has its reserved and unused fields 0, and the others hold the operands. -/
theorem fields_of_decode {w : Word} {i : Instr} (h : decode w = .ok i) :
    rsv0Field w = 0 ∧ faField w = BitVec.ofNat 8 i.fa ∧ fbField w = BitVec.ofNat 8 i.fb ∧ rsv1Field w = 0 := by
  unfold decode at h
  split at h
  next => simp at h
  next j hj =>
    split_ifs at h with hrsv hfa hfb
    obtain rfl : j = i := Except.ok.inj h
    unfold commandOf at hj
    split_ifs at hj with hop <;> obtain rfl := Option.some.inj hj <;>
      simp_all [usesFa, usesFb, Instr.fa, Instr.fb]

/-- R60: the word of a command is its encoding (log 18). -/
theorem encode_of_decode {w : Word} {i : Instr} (h : decode w = .ok i) : encode i = w := by
  obtain ⟨hrsv0, hfa, hfb, hrsv1⟩ := fields_of_decode h
  obtain ⟨hrsv0', hfa', hfb', hrsv1'⟩ := fields_packFields (BitVec.ofNat 8 i.fb) (BitVec.ofNat 8 i.fa) i.opcode
  exact word_eq_of_fields ((Laws.opField_packFields _ _ _).trans (decode_opcode h)) (hrsv0'.trans hrsv0.symm)
    (hfa'.trans hfa.symm) (hfb'.trans hfb.symm) (hrsv1'.trans hrsv1.symm)

/-! ## The invariant -/

/-- The invariant speaks of the sponge's fields, the command in flight and the two counters alone. -/
theorem stateInv_of_sameSponge {s t : State} (h : StateInv s) (hs : SameSponge s t) (hi : t.inflight = s.inflight)
    (hr : t.rnd = s.rnd) (hl : t.latLeft = s.latLeft) : StateInv t where
  no_error_no_code := by rw [hs.err, hs.errCode, hs.errOp]; exact h.no_error_no_code
  error_code_named := by rw [hs.err, hs.errCode]; exact h.error_code_named
  error_no_output := by rw [hs.err, hs.outValid]; exact h.error_no_output
  invalid_out_zero := by rw [hs.outValid, hs.out]; exact h.invalid_out_zero
  output_in_squeeze := by rw [hs.outValid, hs.phase]; exact h.output_in_squeeze
  idle_state_zero := by rw [hs.phase, hs.lanes]; exact h.idle_state_zero
  inflight_accepted := by rw [hi, hs.phase, hs.err]; exact h.inflight_accepted
  rnd_idle := by rw [permuting, hi, hr]; exact h.rnd_idle
  latency_idle := by rw [hi, hl]; exact h.latency_idle

/-- R117: a reset establishes the invariant, whatever the state. -/
theorem stateInv_applyReset (s : State) : StateInv (applyReset s) where
  no_error_no_code := fun _ => ⟨rfl, rfl⟩
  error_code_named := by simp
  error_no_output := by simp
  invalid_out_zero := fun _ => rfl
  output_in_squeeze := by simp
  idle_state_zero := fun _ => rfl
  inflight_accepted := by simp
  rnd_idle := fun _ => rfl
  latency_idle := fun _ => rfl

/-- R39: `rnd` takes a free value only while a permuting command is in flight. -/
theorem stateInv_advance {s : State} (h : StateInv s) : StateInv (advance s) where
  no_error_no_code := h.no_error_no_code
  error_code_named := h.error_code_named
  error_no_output := h.error_no_output
  invalid_out_zero := h.invalid_out_zero
  output_in_squeeze := h.output_in_squeeze
  idle_state_zero := h.idle_state_zero
  inflight_accepted := h.inflight_accepted
  rnd_idle := by
    intro hp
    have hp : permuting s = false := hp
    simp [hp, h.rnd_idle hp]
  latency_idle := by
    intro hi
    simp [h.latency_idle hi]

theorem errCodeBits_named (e : ErrCode) :
    errCodeBits e = 1 ∨ errCodeBits e = 2 ∨ errCodeBits e = 3 ∨ errCodeBits e = 4 := by
  cases e <;> decide

/-- R102: an error recorded with no command in flight keeps the invariant: it clears OUT and keeps the first code. -/
theorem stateInv_recordError {s : State} (h : StateInv s) (hi : s.inflight = none) (e : ErrCode) (op : BitVec 4) :
    StateInv (recordError e op s) where
  no_error_no_code := by simp
  error_code_named := by
    intro _
    cases herr : s.err with
    | false => simpa [herr] using errCodeBits_named e
    | true => simpa [herr] using h.error_code_named herr
  error_no_output := fun _ => rfl
  invalid_out_zero := fun _ => rfl
  output_in_squeeze := by simp
  idle_state_zero := h.idle_state_zero
  inflight_accepted := by simp [hi]
  rnd_idle := h.rnd_idle
  latency_idle := h.latency_idle

/-- R95: a command that passes the checks of acceptance goes in flight as the invariant asks of it. -/
theorem stateInv_start {s : State} {w : Word} {i : Instr} (h : StateInv s) (hlock : locked s i.opcode = false)
    (hd : decode w = .ok i) (hlegal : legal s.phase i = true) (hrange : inRange i = true) (hn : i ≠ .nop) :
    StateInv (start i s) where
  no_error_no_code := h.no_error_no_code
  error_code_named := h.error_code_named
  error_no_output := h.error_no_output
  invalid_out_zero := h.invalid_out_zero
  output_in_squeeze := h.output_in_squeeze
  idle_state_zero := h.idle_state_zero
  inflight_accepted := by
    intro fl hfl
    obtain rfl := Option.some.inj hfl
    refine ⟨i, by rw [encode_of_decode hd, hd], hn, hlegal, hrange, fun herr => ?_⟩
    by_contra hinit
    exact absurd (locked_of_error (s := s) herr hn hinit) (by simp [hlock])
  rnd_idle := fun _ => rfl
  latency_idle := by simp

/-- R98: the invariant after a completion, from what the effect leaves of the sponge's fields. -/
theorem stateInv_finish {s : State} (herr : s.err = false) (hcode : s.errCode = 0 ∧ s.errOp = 0)
    (hout : s.outValid = false → s.out = zeroBlock) (hvalid : s.outValid = true → s.phase = .squeeze)
    (hidle : s.phase ≠ .idle) : StateInv (finish s) where
  no_error_no_code := fun _ => hcode
  error_code_named := by simp [herr]
  error_no_output := by simp [herr]
  invalid_out_zero := hout
  output_in_squeeze := hvalid
  idle_state_zero := fun h => absurd h hidle
  inflight_accepted := by simp
  rnd_idle := fun _ => rfl
  latency_idle := fun _ => rfl

/-- R94: only NOP and INIT are legal while no context is open. -/
theorem phase_of_legal {p : Phase} {i : Instr} (h : legal p i = true) (hn : i ≠ .nop) (hinit : i ≠ .init) :
    p ≠ .idle := by
  rintro rfl
  cases i with
  | nop => exact hn rfl
  | init => exact hinit rfl
  | _ => simp [legal] at h

/-- R98: the completion of an accepted command keeps the invariant. -/
theorem stateInv_finish_effectOf {s : State} {i : Instr} (h : StateInv s) (hn : i ≠ .nop)
    (hlegal : legal s.phase i = true) (herr : s.err = true → i = .init) (snap : Block) :
    StateInv (finish (effectOf i snap s)) := by
  by_cases hinit : i = .init
  · subst hinit
    exact stateInv_finish rfl ⟨rfl, rfl⟩ (fun _ => rfl) (by simp [effectOf]) (by simp [effectOf])
  · have hopen : s.phase ≠ .idle := phase_of_legal hlegal hn hinit
    have hok : s.err = false := by
      cases he : s.err with
      | false => rfl
      | true => exact absurd (herr he) hinit
    have hcode := h.no_error_no_code hok
    cases i with
    | nop => exact absurd rfl hn
    | init => exact absurd rfl hinit
    | absorbFinal n => exact stateInv_finish hok hcode h.invalid_out_zero (fun _ => rfl) (by simp [effectOf])
    | squeeze c =>
      have hphase : s.phase = .squeeze := by simpa [legal] using hlegal
      exact stateInv_finish hok hcode (by simp [effectOf]) (fun _ => hphase) hopen
    | _ => exact stateInv_finish hok hcode h.invalid_out_zero h.output_in_squeeze hopen

theorem stateInv_acceptWord {s t : State} {w : Word} (h : StateInv s) (hi : s.inflight = none)
    (ha : acceptWord w s = .next t) : StateInv t := by
  obtain rfl | ⟨e, -, rfl⟩ | ⟨i, hlock, hd, hlegal, hrange, hn, rfl⟩ := acceptWord_next hi ha
  · exact h
  · exact stateInv_recordError h hi e _
  · exact stateInv_start h (by rw [decode_opcode hd, hlock]) hd hlegal hrange hn

theorem stateInv_popHost {s : State} (h : StateInv s) : StateInv (popHost s) :=
  stateInv_of_sameSponge h ⟨rfl, rfl, rfl, rfl, rfl, rfl, rfl⟩ rfl rfl rfl

/-- R51, R95: of the host's accesses only a CMD write acts on the fields that the invariant speaks of. -/
theorem stateInv_hostStep {s t : State} (h : StateInv s) (hh : hostStep s = .next t) : StateInv t := by
  obtain rfl | ⟨v, rfl⟩ | rfl | ⟨w, rfl⟩ | ⟨w, rfl⟩ | ⟨j, w, rfl⟩ | ⟨w, rest, -, hi, ha⟩ := hostStep_next hh
  case inr.inr.inr.inr.inr.inr => exact stateInv_acceptWord (stateInv_popHost h) hi ha
  all_goals exact stateInv_of_sameSponge h ⟨rfl, rfl, rfl, rfl, rfl, rfl, rfl⟩ rfl rfl rfl

theorem stateInv_step {s t : State} (h : StateInv s) (hstep : step s = .next t) : StateInv t := by
  obtain ⟨-, ⟨-, rfl⟩ | ⟨-, -, fl, i, hi, hd, he⟩ | ⟨-, -, hh⟩⟩ := step_next hstep
  · exact stateInv_applyReset s
  · obtain ⟨i', hd', hn, hlegal, -, herr⟩ := h.inflight_accepted fl hi
    obtain rfl : i' = i := Except.ok.inj (hd'.symm.trans hd)
    obtain rfl := Host.Outcome.next.inj ((exec_inflight (s := advance s) hi hd hn).symm.trans he)
    exact stateInv_finish_effectOf (stateInv_advance h) hn hlegal herr fl.snap
  · exact stateInv_hostStep (stateInv_advance h) hh

/-- R43: no host step changes BASE. -/
theorem hostStep_base {s t : State} (h : hostStep s = .next t) : t.base = s.base := by
  obtain rfl | ⟨v, rfl⟩ | rfl | ⟨w, rfl⟩ | ⟨w, rfl⟩ | ⟨j, w, rfl⟩ | ⟨w, rest, -, hi, ha⟩ := hostStep_next h
  case inr.inr.inr.inr.inr.inr =>
    obtain rfl | ⟨e, -, rfl⟩ | ⟨i, -, -, -, -, -, rfl⟩ := acceptWord_next (s := popHost s) hi ha <;> rfl
  all_goals rfl

/-- R43: BASE is the platform's, and no step changes it. -/
theorem step_base {s t : State} (h : step s = .next t) : t.base = s.base := by
  obtain ⟨-, ⟨-, rfl⟩ | ⟨-, -, fl, i, -, -, he⟩ | ⟨-, -, hh⟩⟩ := step_next h
  · rfl
  · exact (exec_sameSurroundings he).base
  · exact hostStep_base (s := advance s) hh

/-! ## The hold of a CMD write -/

/-- R55: at the host's turn, a CMD write while a command is in flight only lets the counters pass. -/
theorem step_heldWrite {s : State} {w : Word} {rest : List HostStmt} (ht : hostTurn s)
    (hi : s.inflight.isSome = true) (hh : s.host = .write (s.base + 0x008) 4 w :: rest) :
    step s = .next (advance s) := by
  have hheld : heldWrite (advance s) 0x008 4 = true := by
    rw [heldWrite, checkAccess_cmdOffset]
    simp [busy, hi]
  rw [step_of_hostTurn ht, hostStep_write (s := advance s) (off := 0x008) hh, hheld]
  rfl

/-- R55, R95: with no command in flight an undisturbed step accepts the CMD write that the host presents. -/
theorem step_presented {s : State} {w : Word} {rest : List HostStmt} (hu : undisturbed s) (hi : s.inflight = none)
    (hh : s.host = .write (s.base + 0x008) 4 w :: rest) : step s = acceptWord w (popHost (advance s)) := by
  rw [step_write (off := 0x008) (hostTurn_of_idle hu hi) hh (heldWrite_of_idle hi _ _), memWrite_cmd]
  simp [popHost, hh]

/-- R98: the word in flight is a command other than NOP, so an undisturbed step completes it when its latency is over. -/
theorem step_completes {s : State} {fl : InFlight} (h : StateInv s) (hu : undisturbed s) (hi : s.inflight = some fl)
    (hl : s.latLeft = 0) : ∃ i, step s = .next (finish (effectOf i fl.snap (advance s))) := by
  obtain ⟨hsecond, hreset⟩ := hu
  have hdue : completionDue s = true := (completionDue_iff s).2 ⟨by simp [hi], hl⟩
  obtain ⟨i, hd, hn, -⟩ := h.inflight_accepted fl hi
  refine ⟨i, ?_⟩
  calc step s = complete (advance s) := by simp [step, hsecond, hreset, hdue]
    _ = exec i (advance s) := complete_eq (s := advance s) hi hd
    _ = _ := exec_inflight (s := advance s) hi hd hn

theorem run_succ {s t : State} (h : step s = .next t) (k : Nat) :
    Sys2Proof.core.run (k + 1) s = Sys2Proof.core.run k t := by
  have hcore : Sys2Proof.core.step s = .next t := h
  simp only [Host.Core.run, hcore]

/-- R10: a reset line that is never up asks for no reset now. -/
theorem resetDue_of_never {s : State} (h : ∀ b ∈ s.resetPin, b = false) : resetDue s = false := by
  unfold resetDue
  cases hp : s.resetPin with
  | nil => rfl
  | cons b pins => exact h b (by simp [hp])

/-- R55: a CMD write that is held is still held after each step of the latency, until the command in flight completes. -/
theorem run_heldWrite {w : Word} {rest : List HostStmt} {n : Nat} {s : State} (hinv : StateInv s)
    (hsecond : s.secondHost = []) (hpin : ∀ b ∈ s.resetPin, b = false) (hi : s.inflight.isSome = true)
    (hh : s.host = .write (s.base + 0x008) 4 w :: rest) (hl : s.latLeft = n) :
    ∃ t, Sys2Proof.core.run (n + 1) s = .next t ∧ t.inflight = none ∧ undisturbed t ∧ t.host = s.host ∧
      t.base = s.base := by
  have hu : undisturbed s := ⟨hsecond, resetDue_of_never hpin⟩
  have hpin' : ∀ b ∈ (advance s).resetPin, b = false := fun b hb => hpin b (List.mem_of_mem_tail hb)
  induction n generalizing s with
  | zero =>
    obtain ⟨fl, hfl⟩ := Option.isSome_iff_exists.1 hi
    obtain ⟨i, hstep⟩ := step_completes hinv hu hfl hl
    have hsame := effectOf_sameSurroundings i fl.snap (advance s)
    refine ⟨finish (effectOf i fl.snap (advance s)), run_succ hstep 0, rfl, ⟨hsame.secondHost.trans hsecond, ?_⟩,
      hsame.host, hsame.base⟩
    exact resetDue_of_never fun b hb => hpin' b (hsame.resetPin ▸ hb)
  | succ n ih =>
    have hdue : completionDue s = false := by simp [completionDue, hl]
    rw [run_succ (step_heldWrite ⟨hu, hdue⟩ hi hh)]
    exact ih (stateInv_advance hinv) hsecond hpin' hi hh (by simp [hl]) ⟨hsecond, resetDue_of_never hpin'⟩
      fun b hb => hpin' b (List.mem_of_mem_tail hb)

/-! ## BUF and the command in flight -/

theorem effectOf_loadBlock (i : Instr) (snap b : Block) (s : State) :
    effectOf i snap (loadBlock b s) = loadBlock b (effectOf i snap s) := by
  cases i <;> rfl

/-- R57: a command in flight reads its snapshot, never BUF. -/
theorem exec_loadBlock {i : Instr} {s t : State} (b : Block) (hi : s.inflight.isSome = true)
    (h : exec i s = .next t) : exec i (loadBlock b s) = .next (loadBlock b t) := by
  obtain ⟨fl, hfl⟩ := Option.isSome_iff_exists.1 hi
  have hfl' : (loadBlock b s).inflight = some fl := hfl
  by_cases hd : decode fl.cmd = .ok i
  · obtain ⟨rfl, rfl⟩ | ⟨hn, rfl⟩ := exec_completes hfl hd h
    · exact exec_nop _
    · rw [exec_inflight hfl' hd hn, effectOf_loadBlock]
      rfl
  · rw [exec_held hfl hd] at h
    obtain rfl := Host.Outcome.next.inj h
    exact exec_held hfl' hd

end Sys2Proof.Machine

namespace Sys2Proof.Proofs
open Sys2Proof.Machine

/-- Settles O52: a reset, a completion and every host step keep the invariant, and none of them writes BASE. -/
theorem everyStepKeepsTheInvariant : Obligations.EveryStepKeepsTheInvariant :=
  fun _ _ hinv hstep => ⟨stateInv_step hinv hstep, step_base hstep⟩

/-- Settles O10: the write stays held, and only the counters of the step pass. -/
theorem commandWriteIsHeldWhileBusy : Obligations.CommandWriteIsHeldWhileBusy :=
  fun s _ _ ht hi hh => ⟨(advance s).rnd, step_heldWrite ht hi hh⟩

/-- Settles O11: the latency runs out, the command completes, and with none in flight the write is performed. -/
theorem heldCommandWriteIsAlwaysAccepted : Obligations.HeldCommandWriteIsAlwaysAccepted := by
  intro s w rest hinv hsecond hpin hi hh
  obtain ⟨t, hrun, hidle, hu, hhost, hbase⟩ := run_heldWrite hinv hsecond hpin hi hh rfl
  have hh' : t.host = .write (t.base + 0x008) 4 w :: rest := by rw [hhost, hbase, hh]
  exact ⟨t, hrun, hidle, hhost, step_presented hu hidle hh'⟩

/-- Settles O58: the effect of the command in flight is a function of its snapshot, and a held command has none. -/
theorem commandInFlightIgnoresBuf : Obligations.CommandInFlightIgnoresBuf :=
  fun _ _ _ b hi h => exec_loadBlock b hi h

end Sys2Proof.Proofs

/-! The decoder field by field, the rows of the opcode map, and the acceptance of a word that is no command
(spec/30_encoding.md R58 to R62, R67). -/

namespace Sys2Proof.Machine

/-! ## The command of an opcode -/

/-- R59, R60: the command of an opcode has that opcode, and its operands are bytes. -/
theorem opcode_wellFormed_of_commandOf {op : BitVec 4} {fa fb : BitVec 8} {i : Instr}
    (h : commandOf op fa fb = some i) : i.opcode = op ∧ i.wellFormed = true := by
  have hfa := fa.isLt
  have hfb := fb.isLt
  unfold commandOf at h
  split_ifs at h with hop <;> obtain rfl := Option.some.inj h <;>
    simp_all [Instr.opcode, Instr.wellFormed, fitsField]

/-- R58, R59: a well-formed command is the one of its opcode and of the bytes of its operands. -/
theorem commandOf_operands {i : Instr} (h : i.wellFormed = true) :
    commandOf i.opcode (BitVec.ofNat 8 i.fa) (BitVec.ofNat 8 i.fb) = some i := by
  cases i with
  | xorRate offset count =>
    obtain ⟨hoffset, hcount⟩ : offset < 256 ∧ count < 256 := by simpa [Instr.wellFormed, fitsField] using h
    simp [commandOf, Instr.opcode, Instr.fa, Instr.fb, Nat.mod_eq_of_lt hoffset, Nat.mod_eq_of_lt hcount]
  | absorbFinal len =>
    have hlen : len < 256 := by simpa [Instr.wellFormed, fitsField] using h
    simp [commandOf, Instr.opcode, Instr.fa, Nat.mod_eq_of_lt hlen]
  | squeeze count =>
    have hcount : count < 256 := by simpa [Instr.wellFormed, fitsField] using h
    simp [commandOf, Instr.opcode, Instr.fb, Nat.mod_eq_of_lt hcount]
  | _ => rfl

/-- R61: exactly the opcodes 0x7 to 0xF have no command, whatever the operand fields. -/
theorem commandOf_eq_none_iff {op : BitVec 4} {fa fb : BitVec 8} : commandOf op fa fb = none ↔ 7 ≤ op.toNat := by
  unfold commandOf
  split_ifs with h0 h1 h2 h3 h4 h5 h6
  case neg => simp only [true_iff]; bv_omega
  all_goals subst op; simp

/-! ## The decoder -/

/-- R62: the reserved fields of a word are 0, and so are the operand fields that its opcode does not use. -/
def unusedFieldsZero (w : Word) : Prop :=
  rsv0Field w = 0 ∧ rsv1Field w = 0 ∧ (usesFa (opField w) = false → faField w = 0) ∧
    (usesFb (opField w) = false → fbField w = 0)

/-- R60: of the opcodes only XOR_RATE's and ABSORB_FINAL's use `FA`, and only XOR_RATE's and SQUEEZE's use `FB`. -/
theorem not_unusedFieldsZero_iff {w : Word} :
    ¬ unusedFieldsZero w ↔ rsv0Field w ≠ 0 ∨ rsv1Field w ≠ 0 ∨
      (faField w ≠ 0 ∧ opField w ≠ 0x2 ∧ opField w ≠ 0x5) ∨ (fbField w ≠ 0 ∧ opField w ≠ 0x2 ∧ opField w ≠ 0x6) := by
  have hfa : usesFa (opField w) = false ↔ opField w ≠ 0x2 ∧ opField w ≠ 0x5 := by simp [usesFa]
  have hfb : usesFb (opField w) = false ↔ opField w ≠ 0x2 ∧ opField w ≠ 0x6 := by simp [usesFb]
  rw [unusedFieldsZero, hfa, hfb, and_comm (a := faField w ≠ 0), and_comm (a := fbField w ≠ 0)]
  simp only [not_and_or, Classical.not_imp, ne_eq]

/-- R67: without a command the opcode is illegal, whatever the other fields. -/
theorem decode_of_no_command {w : Word} (h : commandOf (opField w) (faField w) (fbField w) = none) :
    decode w = .error .illegalOpcode := by
  simp [decode, h]

theorem decode_of_unusedFieldsZero {w : Word} {i : Instr} (h : commandOf (opField w) (faField w) (fbField w) = some i)
    (hz : unusedFieldsZero w) : decode w = .ok i := by
  obtain ⟨hrsv0, hrsv1, hfa, hfb⟩ := hz
  have hfa' : ¬ (usesFa (opField w) = false ∧ faField w ≠ 0) := fun ⟨hu, hne⟩ => hne (hfa hu)
  have hfb' : ¬ (usesFb (opField w) = false ∧ fbField w ≠ 0) := fun ⟨hu, hne⟩ => hne (hfb hu)
  simp only [decode, h, hrsv0, hrsv1, ne_eq, not_true_eq_false, or_self, if_false, hfa', hfb']

theorem decode_of_not_unusedFieldsZero {w : Word} {i : Instr}
    (h : commandOf (opField w) (faField w) (fbField w) = some i) (hz : ¬ unusedFieldsZero w) :
    decode w = .error .reservedBits := by
  simp only [decode, h]
  split_ifs with hrsv hfa hfb
  case neg => exact absurd (by unfold unusedFieldsZero; tauto) hz
  all_goals rfl

/-- R67: a word decodes to a command exactly when it is its opcode's and no other field is set. -/
theorem decode_eq_ok_iff {w : Word} {i : Instr} :
    decode w = .ok i ↔ commandOf (opField w) (faField w) (fbField w) = some i ∧ unusedFieldsZero w := by
  refine ⟨fun h => ?_, fun ⟨hc, hz⟩ => decode_of_unusedFieldsZero hc hz⟩
  cases hc : commandOf (opField w) (faField w) (fbField w) with
  | none => simp [decode_of_no_command hc] at h
  | some j =>
    by_cases hz : unusedFieldsZero w
    · obtain rfl : j = i := Except.ok.inj ((decode_of_unusedFieldsZero hc hz).symm.trans h)
      exact ⟨rfl, hz⟩
    · simp [decode_of_not_unusedFieldsZero hc hz] at h

/-- R58, R60: a command's word has only its opcode and its operands set. -/
theorem unusedFieldsZero_encode (i : Instr) : unusedFieldsZero (encode i) := by
  obtain ⟨hrsv0, hfa, hfb, hrsv1⟩ := fields_packFields (BitVec.ofNat 8 i.fb) (BitVec.ofNat 8 i.fa) i.opcode
  have hop := Laws.opField_packFields (BitVec.ofNat 8 i.fb) (BitVec.ofNat 8 i.fa) i.opcode
  refine ⟨hrsv0, hrsv1, ?_, ?_⟩ <;> simp only [encode, hop, hfa, hfb] <;> cases i <;>
    simp [usesFa, usesFb, Instr.opcode, Instr.fa, Instr.fb]

theorem decode_encode {i : Instr} (h : i.wellFormed = true) : decode (encode i) = .ok i := by
  obtain ⟨-, hfa, hfb, -⟩ := fields_packFields (BitVec.ofNat 8 i.fb) (BitVec.ofNat 8 i.fa) i.opcode
  refine decode_of_unusedFieldsZero ?_ (unusedFieldsZero_encode i)
  rw [encode, Laws.opField_packFields, hfa, hfb, commandOf_operands h]

/-! ## The rows of the opcode map -/

/-- R58: a mask acts on each of the five fields by itself. -/
theorem and_eq_iff_fields {w m v : Word} :
    w &&& m = v ↔ opField w &&& opField m = opField v ∧ rsv0Field w &&& rsv0Field m = rsv0Field v ∧
      faField w &&& faField m = faField v ∧ fbField w &&& fbField m = fbField v ∧
      rsv1Field w &&& rsv1Field m = rsv1Field v := by
  simp only [opField, rsv0Field, faField, fbField, rsv1Field, ← BitVec.extractLsb'_and]
  constructor
  · rintro rfl
    exact ⟨rfl, rfl, rfl, rfl, rfl⟩
  · rintro ⟨hop, hrsv0, hfa, hfb, hrsv1⟩
    exact word_eq_of_fields hop hrsv0 hfa hfb hrsv1

/-- R60: the `match` of a command's row is its opcode, every other field 0. -/
theorem fields_rowMatch (i : Instr) :
    opField i.rowMatch = i.opcode ∧ rsv0Field i.rowMatch = 0 ∧ faField i.rowMatch = 0 ∧ fbField i.rowMatch = 0 ∧
      rsv1Field i.rowMatch = 0 := by
  cases i <;> rw [Instr.rowMatch, Instr.opcode] <;> decide

/-- R60: the `mask` of a command's row covers every field but the operands that the command uses. -/
theorem fields_rowMask (i : Instr) :
    opField i.rowMask = BitVec.allOnes 4 ∧ rsv0Field i.rowMask = BitVec.allOnes 4 ∧
      faField i.rowMask = (if usesFa i.opcode then 0 else BitVec.allOnes 8) ∧
      fbField i.rowMask = (if usesFb i.opcode then 0 else BitVec.allOnes 8) ∧
      rsv1Field i.rowMask = BitVec.allOnes 8 := by
  cases i <;> rw [Instr.rowMask, Instr.opcode] <;> decide

/-- A mask that covers a field or leaves it out, as `used` says. -/
theorem and_mask_eq_zero_iff {n : Nat} (x : BitVec n) (used : Bool) :
    x &&& (if used then 0 else BitVec.allOnes n) = 0 ↔ (used = false → x = 0) := by
  cases used <;> simp

/-- R60, R62: a word matches a command's row when it has the command's opcode and no field set that the row leaves 0. -/
theorem matches_row_iff_fields (w : Word) (i : Instr) :
    w &&& i.rowMask = i.rowMatch ↔ opField w = i.opcode ∧ unusedFieldsZero w := by
  obtain ⟨hop, hrsv0, hfa, hfb, hrsv1⟩ := fields_rowMatch i
  obtain ⟨mop, mrsv0, mfa, mfb, mrsv1⟩ := fields_rowMask i
  rw [and_eq_iff_fields, hop, hrsv0, hfa, hfb, hrsv1, mop, mrsv0, mfa, mfb, mrsv1]
  simp only [BitVec.and_allOnes, and_mask_eq_zero_iff]
  refine and_congr_right fun h => ?_
  rw [unusedFieldsZero, h]
  tauto

/-- R60: a word matches the row of the command that its fields spell exactly when it decodes to that command. -/
theorem matches_row_iff_decode {w : Word} {i : Instr} (h : commandOf i.opcode (faField w) (fbField w) = some i) :
    w &&& i.rowMask = i.rowMatch ↔ decode w = .ok i := by
  rw [matches_row_iff_fields, decode_eq_ok_iff]
  refine and_congr_left fun _ => ⟨fun hop => by rw [hop, h], fun hc => ?_⟩
  exact (opcode_wellFormed_of_commandOf hc).1.symm

/-- R60: every row's mask covers the opcode, so a word has the opcode of each row that it matches. -/
theorem opField_of_matchesRow {w : Word} {row : Word × Word} (hrow : row ∈ opcodeRows) (h : matchesRow w row = true) :
    opField row.1 = opField w := by
  have hmask : ∀ row ∈ opcodeRows, opField row.2 = BitVec.allOnes 4 := by simp [opcodeRows, opField]
  have hand : w &&& row.2 = row.1 := by simpa [matchesRow] using h
  obtain ⟨hop, -⟩ := and_eq_iff_fields.1 hand
  rw [← hop, hmask row hrow, BitVec.and_allOnes]

/-- R60: no word matches two rows, because no two rows have the same opcode. -/
theorem length_filter_matchesRow_le_one (w : Word) : (opcodeRows.filter (matchesRow w)).length ≤ 1 := by
  have hnodup : (opcodeRows.map fun row => opField row.1).Nodup := by decide
  calc (opcodeRows.filter (matchesRow w)).length
      = opcodeRows.countP (matchesRow w) := List.countP_eq_length_filter.symm
    _ ≤ opcodeRows.countP ((· == opField w) ∘ fun row => opField row.1) :=
        List.countP_mono_left fun row hrow h => by simpa using opField_of_matchesRow hrow h
    _ = (opcodeRows.map fun row => opField row.1).count (opField w) := List.countP_map.symm
    _ ≤ 1 := List.nodup_iff_count_le_one.1 hnodup _

theorem row_mem_opcodeRows (i : Instr) : (i.rowMatch, i.rowMask) ∈ opcodeRows := by
  cases i <;> simp [Instr.rowMatch, Instr.rowMask, opcodeRows]

/-- R62: a word of a command's opcode that matches no row has a field set that should be 0. -/
theorem not_unusedFieldsZero_of_matchesNoRow {w : Word} {i : Instr}
    (hc : commandOf (opField w) (faField w) (fbField w) = some i) (h : matchesNoRow w = true) :
    ¬ unusedFieldsZero w := by
  intro hz
  have hmatch : w &&& i.rowMask = i.rowMatch :=
    (matches_row_iff_fields w i).2 ⟨(opcode_wellFormed_of_commandOf hc).1.symm, hz⟩
  have hno := List.all_eq_true.1 h _ (row_mem_opcodeRows i)
  simp [matchesRow, hmatch] at hno

/-! ## The acceptance of a word that is no command -/

/-- R95, R103: a word that is no command is discarded by the lock, or its error is recorded. -/
theorem acceptWord_of_decode_error {w : Word} {e : ErrCode} (hd : decode w = .error e) (s : State) :
    acceptWord w s = .next (if locked s (opField w) then s else recordError e (opField w) s) := by
  unfold acceptWord
  split_ifs
  · rfl
  · rw [hd]

/-- R102: the first error keeps its code and its opcode. -/
theorem recordError_of_no_error {s : State} (h : s.err = false) (e : ErrCode) (op : BitVec 4) :
    recordError e op s = { s with
      err := true, errCode := errCodeBits e, errOp := op, errP := true, out := zeroBlock, outValid := false } := by
  simp [recordError, h]

/-- R102: a later error changes neither the code nor the opcode. -/
theorem recordError_of_error {s : State} (h : s.err = true) (e : ErrCode) (op : BitVec 4) :
    recordError e op s = { s with errP := true, out := zeroBlock, outValid := false } := by
  simp [recordError, h]

theorem acceptWord_records {w : Word} {e : ErrCode} {s : State} (hd : decode w = .error e) (herr : s.err = false) :
    acceptWord w s = .next { s with
      err := true, errCode := errCodeBits e, errOp := opField w, errP := true, out := zeroBlock,
      outValid := false } := by
  rw [acceptWord_of_decode_error hd, locked_of_no_error herr, ← recordError_of_no_error herr]
  rfl

/-- R103: while ERR = 1 a word of another opcode than 0x0 and 0x1 is discarded. -/
theorem acceptWord_discards {w : Word} {s : State} (herr : s.err = true) (h0 : opField w ≠ 0x0)
    (h1 : opField w ≠ 0x1) : acceptWord w s = .next s := by
  have hl : locked s (opField w) = true := by simp_all [locked]
  simp [acceptWord, hl]

/-- R102, R103: while ERR = 1 an error in a word of opcode 0x0 or 0x1 is still recorded, but the first code stays. -/
theorem acceptWord_records_again {w : Word} {e : ErrCode} {s : State} (hd : decode w = .error e) (herr : s.err = true)
    (hop : opField w = 0x0 ∨ opField w = 0x1) :
    acceptWord w s = .next { s with errP := true, out := zeroBlock, outValid := false } := by
  have hl : locked s (opField w) = false := by obtain h | h := hop <;> simp [locked, h]
  rw [acceptWord_of_decode_error hd, hl, ← recordError_of_error herr]
  rfl

end Sys2Proof.Machine

namespace Sys2Proof.Proofs
open Sys2Proof.Machine

/-- Settles O1: the fields of the encoding are the opcode and the operands, and the decoder reads them back. -/
theorem decodeOfEncodeIsTheCommand : Obligations.DecodeOfEncodeIsTheCommand :=
  fun _ h => decode_encode h

/-- Settles O2: every operand that the decoder reads is a byte, and no bit of a word is ignored. -/
theorem encodeOfDecodeIsTheWord : Obligations.EncodeOfDecodeIsTheWord :=
  fun _ _ h => ⟨(opcode_wellFormed_of_commandOf (decode_eq_ok_iff.1 h).1).2, encode_of_decode h⟩

/-- Settles O3: a row's mask covers the opcode and every field that the decoder wants 0, and no other. -/
theorem wordSpellsCommandByMatchAndMask : Obligations.WordSpellsCommandByMatchAndMask := by
  intro w
  refine ⟨matches_row_iff_decode (i := .nop) rfl, matches_row_iff_decode (i := .init) rfl,
    matches_row_iff_decode (i := .xorRate _ _) rfl, matches_row_iff_decode (i := .permute) rfl,
    matches_row_iff_decode (i := .absorb) rfl, matches_row_iff_decode (i := .absorbFinal _) rfl,
    matches_row_iff_decode (i := .squeeze _) rfl, length_filter_matchesRow_le_one w, fun hop i hd => ?_⟩
  have hnone := commandOf_eq_none_iff (fa := faField w) (fb := fbField w) |>.2 hop
  simp [decode_of_no_command hnone] at hd

/-- Settles O4: the decoder answers ILLEGAL_OPCODE, which acceptance records or, under the lock, discards. -/
theorem reservedOpcodeRecordsIllegalOpcode : Obligations.ReservedOpcodeRecordsIllegalOpcode := by
  intro w s _ hop
  have hop' : 7 ≤ (opField w).toNat := hop
  have hd : decode w = .error .illegalOpcode := decode_of_no_command (commandOf_eq_none_iff.2 hop')
  refine ⟨fun herr => acceptWord_records hd herr, fun herr => acceptWord_discards herr ?_ ?_⟩ <;>
    intro h <;> simp [h] at hop'

/-- Settles O5: the word has a command's opcode and a field set that its row leaves 0, so the decoder answers
RESERVED_BITS. -/
theorem unmatchedWordRecordsReservedBits : Obligations.UnmatchedWordRecordsReservedBits := by
  intro w s _ hop hno
  obtain ⟨i, hc⟩ : ∃ i, commandOf (opField w) (faField w) (fbField w) = some i := by
    rw [← Option.ne_none_iff_exists', ne_eq, commandOf_eq_none_iff]
    exact fun h => absurd (h.trans hop) (by decide)
  have hz := not_unusedFieldsZero_of_matchesNoRow hc hno
  have hd := decode_of_not_unusedFieldsZero hc hz
  exact ⟨not_unusedFieldsZero_iff.1 hz, acceptWord_records hd, acceptWord_records_again hd, acceptWord_discards⟩

/-- Settles O6: the words are literals, and the decoder computes. -/
theorem exampleWordsDecode : Obligations.ExampleWordsDecode := by
  unfold Obligations.ExampleWordsDecode
  decide

end Sys2Proof.Proofs

/-! The byte view of the state matrix under XorRate and ReadRate, and the word of XOR_RATE
(spec/40_state_matrix_xor.md R68 to R71). -/

namespace Sys2Proof.Machine

/-! ## A byte of the state -/

/-- R14: a byte placed at byte `k` of a lane is the lane's byte `k`, and every other byte of that lane is 0. -/
theorem byte_of_shifted_byte (v : Byte) {k b : Nat} (hk : k < 8) :
    (((v.setWidth 64 : Lane) <<< (8 * k)) >>> (8 * b)).setWidth 8 = if k = b then v else 0 := by
  apply BitVec.eq_of_getLsbD_eq
  intro n hn
  simp only [BitVec.getLsbD_setWidth, BitVec.getLsbD_ushiftRight, BitVec.getLsbD_shiftLeft]
  obtain hlt | rfl | hgt := Nat.lt_trichotomy k b
  · have hhigh : 8 ≤ 8 * b + n - 8 * k := by omega
    simp [hlt.ne, BitVec.getLsbD_of_ge v _ hhigh]
  · have hlane : 8 * k + n < 64 := by omega
    have hbit : n < 64 := by omega
    simp [hn, hlane, hbit]
  · have hlow : 8 * b + n < 8 * k := by omega
    simp [hgt.ne', hlow]

/-- R14: XORing a byte into the state changes that byte alone. -/
theorem stateByte_xorStateByte (A : Lanes) (p q : Fin 200) (v : Byte) :
    stateByte (xorStateByte A p v) q = if p = q then stateByte A q ^^^ v else stateByte A q := by
  by_cases hlane : p.val / 8 = q.val / 8
  · have hbyte : p = q ↔ p.val % 8 = q.val % 8 := by omega
    simp only [stateByte, xorStateByte, hlane, Vector.getElem_set_self, BitVec.ushiftRight_xor_distrib,
      BitVec.setWidth_xor, byte_of_shifted_byte v (Nat.mod_lt p.val (by decide)), hbyte]
    split_ifs <;> simp
  · have hne : p ≠ q := fun h => hlane (by rw [h])
    simp [stateByte, xorStateByte, Vector.getElem_set_ne _ _ hlane, hne]

/-- R14: byte `b` of lane `i` is byte `8*i + b` of the state. -/
theorem stateByte_eq_byte_of_lane (A : Lanes) {i b : Nat} (hi : i < 25) (hb : b < 8) :
    stateByte A ⟨8 * i + b, by omega⟩ = (A[i] >>> (8 * b)).setWidth 8 := by
  have hlane : (8 * i + b) / 8 = i := by omega
  have hbyte : (8 * i + b) % 8 = b := by omega
  simp only [stateByte, hlane, hbyte]

/-! ## XorRate -/

/-- R68: what XorRate does at one rate position. -/
def xorRateStep (data : Block) (off cnt : Nat) (B : Lanes) (p : Fin 136) : Lanes :=
  if off ≤ p.val ∧ p.val < off + cnt then xorStateByte B (ratePos p) data[p] else B

theorem xorRate_eq_foldl (A : Lanes) (data : Block) (off cnt : Nat) :
    xorRate A data off cnt = (List.finRange 136).foldl (xorRateStep data off cnt) A := by
  unfold xorRate
  rfl

theorem ratePos_inj {p q : Fin 136} : ratePos p = ratePos q ↔ p = q := by
  simp [ratePos, Fin.ext_iff]

theorem stateByte_xorRateStep_self (data : Block) (off cnt : Nat) (B : Lanes) (p : Fin 136) :
    stateByte (xorRateStep data off cnt B p) (ratePos p) =
      if off ≤ p.val ∧ p.val < off + cnt then stateByte B (ratePos p) ^^^ data[p] else stateByte B (ratePos p) := by
  unfold xorRateStep
  split
  next => rw [stateByte_xorStateByte, if_pos rfl]
  next => rfl

theorem stateByte_xorRateStep_ne (data : Block) (off cnt : Nat) (B : Lanes) {p q : Fin 136} (h : p ≠ q) :
    stateByte (xorRateStep data off cnt B p) (ratePos q) = stateByte B (ratePos q) := by
  unfold xorRateStep
  split
  next => rw [stateByte_xorStateByte, if_neg (mt ratePos_inj.1 h)]
  next => rfl

/-- R68: positions that do not come again leave a byte as it is. -/
theorem stateByte_foldl_xorRateStep_of_notMem (data : Block) (off cnt : Nat) (A : Lanes) {l : List (Fin 136)}
    {q : Fin 136} (hq : q ∉ l) :
    stateByte (l.foldl (xorRateStep data off cnt) A) (ratePos q) = stateByte A (ratePos q) :=
  List.foldlRecOn (motive := fun B => stateByte B (ratePos q) = stateByte A (ratePos q)) l _ rfl
    fun B hB _ hp => (stateByte_xorRateStep_ne data off cnt B (ne_of_mem_of_not_mem hp hq)).trans hB

/-- R68: a rate byte is XORed once if its position is in the range, when the walk comes to it, and stays after that. -/
theorem stateByte_xorRate (A : Lanes) (data : Block) (off cnt : Nat) (q : Fin 136) :
    stateByte (xorRate A data off cnt) (ratePos q) =
      if off ≤ q.val ∧ q.val < off + cnt then stateByte A (ratePos q) ^^^ data[q] else stateByte A (ratePos q) := by
  obtain ⟨before, after, hwalk⟩ := List.append_of_mem (List.mem_finRange q)
  have hnodup : (before ++ q :: after).Nodup := hwalk ▸ List.nodup_finRange 136
  have hbefore : q ∉ before := fun h => List.disjoint_of_nodup_append hnodup h List.mem_cons_self
  have hafter : q ∉ after := (List.nodup_cons.1 hnodup.of_append_right).1
  rw [xorRate_eq_foldl, hwalk, List.foldl_append, List.foldl_cons, stateByte_foldl_xorRateStep_of_notMem _ _ _ _ hafter,
    stateByte_xorRateStep_self, stateByte_foldl_xorRateStep_of_notMem _ _ _ _ hbefore]

/-! ## ReadRate -/

theorem length_readRate (A : Lanes) {cnt : Nat} (hcnt : cnt ≤ 136) : (readRate A cnt).length = cnt := by
  simp [readRate, hcnt]

theorem getElem?_readRate (A : Lanes) {cnt p : Nat} (hp : p < 136) (hcnt : p < cnt) :
    (readRate A cnt)[p]? = some (stateByte A (ratePos ⟨p, hp⟩)) := by
  simp [readRate, hp, hcnt]

/-- R71: ReadRate reads the lanes 0 to 16 alone. -/
theorem readRate_congr {A B : Lanes} (h : ∀ (k : Nat) (_ : k < 25), k < 17 → A[k] = B[k]) (cnt : Nat) :
    readRate A cnt = readRate B cnt := by
  unfold readRate
  refine List.map_congr_left fun p _ => ?_
  have hlane : p.val / 8 < 17 := by omega
  simp only [stateByte, ratePos, h (p.val / 8) (by omega) hlane]

/-! ## The word of a command as a number -/

/-- R58: the packed fields do not overlap. -/
theorem toNat_packFields (fb fa : BitVec 8) (op : BitVec 4) :
    (packFields fb fa op).toNat = op.toNat + 256 * fa.toNat + 65536 * fb.toNat := by
  have hop := op.isLt
  have hfa := fa.isLt
  have hfb := fb.isLt
  have withFa := toNat_or_shiftLeft (k := 8) (BitVec.toNat_setWidth_of_le (w' := 32) (b := op) (by decide))
    (BitVec.toNat_setWidth_of_le (w' := 32) (b := fa) (by decide)) (by omega) (by omega)
  exact toNat_or_shiftLeft (k := 16) withFa (BitVec.toNat_setWidth_of_le (w' := 32) (b := fb) (by decide))
    (by omega) (by omega)

/-- R58, R60: the word of a command whose operands are bytes. -/
theorem encode_eq_ofNat {i : Instr} (hfa : i.fa < 256) (hfb : i.fb < 256) :
    encode i = BitVec.ofNat 32 (i.opcode.toNat + 256 * i.fa + 65536 * i.fb) := by
  have hop := i.opcode.isLt
  apply BitVec.eq_of_toNat_eq
  rw [encode, toNat_packFields, BitVec.toNat_ofNat, BitVec.toNat_ofNat, BitVec.toNat_ofNat]
  omega

end Sys2Proof.Machine

namespace Sys2Proof.Proofs
open Sys2Proof.Machine

/-- Settles O33: XOR_RATE is legal in phase ABSORB alone, and its word in flight decodes to the command. -/
theorem xorRateCommand : Obligations.XorRateCommand := by
  intro o c ho hc
  have hword : encode (.xorRate o c) = BitVec.ofNat 32 (0x2 + 256 * o + 65536 * c) := encode_eq_ofNat ho hc
  have hdecode : decode (BitVec.ofNat 32 (0x2 + 256 * o + 65536 * c)) = .ok (.xorRate o c) :=
    hword ▸ decode_encode (by simp [Instr.wellFormed, fitsField, ho, hc])
  refine ⟨fun s hi herr hphase hrange => ?accepted, fun s hi herr hphase => ?badPhase,
    fun s hi herr hphase hrange => ?badRange, fun s snap hi => ?completed⟩
  case accepted =>
    rw [exec_idle hi, acceptCommand_starts (locked_of_no_error herr _) (by simp [legal, hphase])
      (by simp [inRange, hrange]) (by simp), start, hword]
  case badPhase =>
    rw [exec_idle hi, acceptCommand_badPhase (locked_of_no_error herr _) (by simp [legal, hphase])]
    rfl
  case badRange =>
    rw [exec_idle hi, acceptCommand_badRange (locked_of_no_error herr _) (by simp [legal, hphase])
      (by simp [inRange, hrange])]
    rfl
  case completed =>
    rw [exec_inflight hi hdecode (by simp)]
    rfl

/-- Settles O39: a rate byte is XORed where its position is in the range, and the capacity has no position. -/
theorem xorRateActsOnItsBytes : Obligations.XorRateActsOnItsBytes := by
  intro A data off cnt _ i b hi hb
  by_cases hrate : i < 17
  · have hpos : 8 * i + b < 136 := by omega
    rw [← stateByte_eq_byte_of_lane _ hi hb, ← stateByte_eq_byte_of_lane _ hi hb]
    have hbyte := stateByte_xorRate A data off cnt ⟨8 * i + b, hpos⟩
    by_cases hrange : off ≤ 8 * i + b ∧ 8 * i + b < off + cnt <;> simpa [hrange, hpos, ratePos] using hbyte
  · have hpos : ¬ 8 * i + b < 136 := by omega
    simp [xorRate_capacity A data off cnt hi (by omega), hpos]

/-- Settles O40: ReadRate lists the bytes of the first `cnt` rate positions. -/
theorem readRateReturnsTheFirstBytes : Obligations.ReadRateReturnsTheFirstBytes :=
  fun A _ hcnt => ⟨length_readRate A hcnt, fun _ hp hlt => getElem?_readRate A hp hlt⟩

/-- Settles O41: every rate position lies in one of the lanes 0 to 16. -/
theorem rateAccessesNeverTouchTheCapacity : Obligations.RateAccessesNeverTouchTheCapacity :=
  ⟨fun A data off cnt _ hk hcap => xorRate_capacity A data off cnt hk hcap, fun _ _ cnt h => readRate_congr h cnt⟩

end Sys2Proof.Proofs

/-! The sub-steps of the permutation lane by lane, the traversal of rho and pi as one cycle of 24 lanes, and the rounds
in order (spec/41_permutation.md R72 to R81). -/

namespace Sys2Proof.Machine

/-! ## The lanes of a matrix -/

/-- R13: a linear index belongs to one column and one row. -/
theorem laneIndex_inj {x y x' y' : Fin 5} : x.val + 5 * y.val = x'.val + 5 * y'.val ↔ (x, y) = (x', y') := by
  rw [Prod.mk.injEq, Fin.ext_iff, Fin.ext_iff]
  omega

theorem laneAt_set (A : Lanes) (x y X Y : Fin 5) (v : Lane) :
    laneAt (A.set (x.val + 5 * y.val) v (by omega)) X Y = if (x, y) = (X, Y) then v else laneAt A X Y := by
  simp only [laneAt, Vector.getElem_set, laneIndex_inj]

/-! ## Theta, chi and iota -/

theorem laneAt_theta (A : Lanes) (x y : Fin 5) :
    laneAt (theta A) x y =
      laneAt A x y ^^^ (columnParity A (x + 4) ^^^ (columnParity A (x + 1)).rotateLeft 1) := by
  rw [theta, laneAt_ofLanes, thetaD, rotl64_eq_rotateLeft]

theorem laneAt_chi (A : Lanes) (x y : Fin 5) :
    laneAt (chi A) x y = laneAt A x y ^^^ (~~~laneAt A (x + 1) y &&& laneAt A (x + 2) y) := by
  rw [chi, laneAt_ofLanes]

theorem laneAt_iota (A : Lanes) (ir : Fin 24) (x y : Fin 5) :
    laneAt (iota A ir) x y = if (0, 0) = (x, y) then laneAt A 0 0 ^^^ roundConstants[ir] else laneAt A x y :=
  laneAt_set A 0 0 x y _

/-! ## The traversal of rho and pi -/

/-- R74: the lane at `(x, y)` goes to `(y, 2x + 3y)`, which is the place that the closed form fills from it. -/
theorem laneAt_rhoPi (A : Lanes) (x y : Fin 5) :
    laneAt (rhoPi A) y (2 * x + 3 * y) = rotl64 (laneAt A x y) (rotOffset x y) := by
  have hsource : y + 3 * (2 * x + 3 * y) = x := by decide +revert
  rw [rhoPi, laneAt_ofLanes, hsource]

/-- R74: lane (0,0) stays where it is, with offset 0. -/
theorem laneAt_rhoPi_origin (A : Lanes) : laneAt (rhoPi A) 0 0 = laneAt A 0 0 :=
  laneAt_rhoPi A 0 0

/-- R73: the place of the lane in hand after `t` steps of the traversal. -/
def walkPos : Nat → Fin 5 × Fin 5
  | 0 => (1, 0)
  | t + 1 => match walkPos t with
    | (x, y) => (y, 2 * x + 3 * y)

theorem walkPos_succ {t : Nat} {x y : Fin 5} (h : walkPos t = (x, y)) : walkPos (t + 1) = (y, 2 * x + 3 * y) := by
  rw [walkPos, h]

/-- R73: the first `t` steps of the traversal have written the place `p`. -/
def Written (t : Nat) (p : Fin 5 × Fin 5) : Prop := ∃ k < t, walkPos (k + 1) = p

theorem written_succ {t : Nat} {p : Fin 5 × Fin 5} : Written (t + 1) p ↔ Written t p ∨ walkPos (t + 1) = p := by
  rw [Written, Nat.exists_lt_succ_right, Written]

/-- R73: the 24 places of the traversal are distinct, so that each lane is read before it is overwritten. -/
theorem not_written_walkPos_succ : ∀ t < 24, ¬ Written t (walkPos (t + 1)) := by
  unfold Written
  decide

/-- R73: the traversal leaves out lane (0,0) alone. -/
theorem written_of_ne_origin : ∀ x y : Fin 5, (x, y) ≠ (0, 0) → Written 24 (x, y) := by
  unfold Written
  decide

/-- R74: the triangular numbers modulo 64 along the traversal are the offset table. -/
theorem rotOffset_walkPos :
    ∀ t < 24, rotOffset (walkPos t).1 (walkPos t).2 = (t + 1) * (t + 2) / 2 % 64 := by
  decide

/-- R73: what holds after `t` steps of the traversal of `A`: the lane in hand is the input's, the places written hold
what the closed form has there, and the others are as in the input. -/
structure WalkInv (A : Lanes) (t : Nat) (w : RhoPiWalk) : Prop where
  place : walkPos t = (w.x, w.y)
  inHand : w.cur = laneAt A w.x w.y
  written : ∀ x y, Written t (x, y) → laneAt w.lanes x y = laneAt (rhoPi A) x y
  unwritten : ∀ x y, ¬ Written t (x, y) → laneAt w.lanes x y = laneAt A x y

theorem walkInv_start (A : Lanes) : WalkInv A 0 { x := 1, y := 0, cur := laneAt A 1 0, lanes := A } where
  place := rfl
  inHand := rfl
  written := by simp [Written]
  unwritten := fun _ _ _ => rfl

theorem laneAt_rhoPiWalkStep (w : RhoPiWalk) (t : Nat) (x y : Fin 5) :
    laneAt (rhoPiWalkStep w t).lanes x y =
      if (w.y, 2 * w.x + 3 * w.y) = (x, y) then rotl64 w.cur ((t + 1) * (t + 2) / 2 % 64) else laneAt w.lanes x y :=
  laneAt_set w.lanes _ _ x y _

theorem walkInv_step {A : Lanes} {t : Nat} {w : RhoPiWalk} (ht : t < 24) (h : WalkInv A t w) :
    WalkInv A (t + 1) (rhoPiWalkStep w t) := by
  have hnext : walkPos (t + 1) = (w.y, 2 * w.x + 3 * w.y) := walkPos_succ h.place
  have hoffset : rotOffset w.x w.y = (t + 1) * (t + 2) / 2 % 64 := by
    simpa [h.place] using rotOffset_walkPos t ht
  refine ⟨hnext, h.unwritten _ _ (hnext ▸ not_written_walkPos_succ t ht), fun x y hw => ?written,
    fun x y hw => ?unwritten⟩
  case written =>
    rw [laneAt_rhoPiWalkStep]
    split
    next heq =>
      obtain ⟨rfl, rfl⟩ := Prod.mk.inj heq
      rw [laneAt_rhoPi, h.inHand, hoffset]
    next hne => exact h.written x y ((written_succ.1 hw).resolve_right (hnext ▸ hne))
  case unwritten =>
    rw [written_succ, not_or, hnext] at hw
    rw [laneAt_rhoPiWalkStep, if_neg hw.2, h.unwritten x y hw.1]

theorem walkInv_foldl (A : Lanes) {t : Nat} (ht : t ≤ 24) :
    WalkInv A t ((List.range t).foldl rhoPiWalkStep { x := 1, y := 0, cur := laneAt A 1 0, lanes := A }) := by
  induction t with
  | zero => exact walkInv_start A
  | succ t ih =>
    rw [List.range_succ, List.foldl_append]
    exact walkInv_step ht (ih (Nat.le_of_lt ht))

/-- R73, R74: after the 24 steps every place but (0,0) is written, and (0,0) is its own image. -/
theorem rhoPiTraversal_eq_rhoPi (A : Lanes) : rhoPiTraversal A = rhoPi A := by
  have hwalk := walkInv_foldl A (Nat.le_refl 24)
  refine lanes_ext fun x y => ?_
  by_cases hw : Written 24 (x, y)
  · exact hwalk.written x y hw
  · obtain ⟨rfl, rfl⟩ : x = 0 ∧ y = 0 := by
      simpa using mt (written_of_ne_origin x y) hw
    exact (hwalk.unwritten 0 0 hw).trans (laneAt_rhoPi_origin A).symm

/-! ## The rounds in order -/

/-- A fold over `0, 1, ..., n - 1` ends where a sequence of its values ends. -/
theorem foldl_finRange_of_sequence {α : Type} {n : Nat} {f : α → Fin n → α} {b : Nat → α}
    (h : ∀ i : Fin n, b (i.val + 1) = f (b i.val) i) : (List.finRange n).foldl f (b 0) = b n := by
  induction n with
  | zero => rfl
  | succ n ih =>
    have hinit := ih (f := fun a i => f a i.castSucc) fun i => h i.castSucc
    rw [List.finRange_succ_last, List.foldl_append, List.foldl_map, hinit]
    exact (h (Fin.last n)).symm

/-- R79: KeccakF ends where the sequence of the 24 rounds ends. -/
theorem keccakF_of_rounds {B : Nat → Lanes} (h : ∀ ir : Fin 24, B (ir.val + 1) = round (B ir.val) ir) :
    keccakF (B 0) = B 24 := by
  rw [keccakF]
  exact foldl_finRange_of_sequence h

end Sys2Proof.Machine

namespace Sys2Proof.Proofs
open Sys2Proof.Machine

/-- Settles O34: KeccakF is the fold of the rounds, and PERMUTE is legal in every phase but IDLE. -/
theorem permuteCommand : Obligations.PermuteCommand := by
  have hdecode : decode 0x00000003 = .ok .permute := by decide
  refine ⟨fun _ _ => rfl, fun _ => keccakF_of_rounds, fun s hi herr hphase => ?accepted,
    fun s hi herr hphase => ?badPhase, fun s snap hi => ?completed⟩
  case accepted =>
    rw [exec_idle hi, acceptCommand_starts (locked_of_no_error herr _) (by simp [legal, hphase]) rfl (by simp)]
    rfl
  case badPhase =>
    rw [exec_idle hi, acceptCommand_badPhase (locked_of_no_error herr _) (by simp [legal, hphase])]
    rfl
  case completed =>
    rw [exec_inflight hi hdecode (by simp)]
    rfl

/-- Settles O45: both steps build the new matrix lane by lane from the input. -/
theorem thetaAndChiReadTheInputLanes : Obligations.ThetaAndChiReadTheInputLanes :=
  fun A x y => ⟨laneAt_theta A x y, laneAt_chi A x y⟩

/-- Settles O46: by the invariant of the traversal, whose cycle passes every lane but (0,0). -/
theorem rhoPiTraversalEqualsItsClosedForm : Obligations.RhoPiTraversalEqualsItsClosedForm := by
  refine fun A => ⟨rhoPiTraversal_eq_rhoPi A, fun x y => ?_⟩
  rw [rhoPiTraversal_eq_rhoPi, laneAt_rhoPi, rotl64_eq_rotateLeft]

/-- Settles O47: iota sets lane (0,0) alone, and the two columns of the table hold the constants in order. -/
theorem iotaChangesOnlyTheFirstLane : Obligations.IotaChangesOnlyTheFirstLane := by
  refine ⟨fun A ir => ⟨?first, fun x y hne => ?other⟩, ?constants⟩
  case first => rw [laneAt_iota, if_pos rfl]
  case other => rw [laneAt_iota, if_neg hne.symm]
  case constants => simp [roundConstants, roundConstantRows]

end Sys2Proof.Proofs

/-! The acceptance and the completion of a command from a state with no error, the padding of the final block, and the
absorption of a message block by block (spec/42_padding_absorb.md R83 to R88). -/

namespace Sys2Proof.Machine

/-! ## The two steps of a command from a state with no error -/

/-- R95: a command in its phase and range goes in flight. -/
theorem exec_starts {i : Instr} {s : State} (hi : s.inflight = none) (herr : s.err = false)
    (hphase : legal s.phase i = true) (hrange : inRange i = true) (hn : i ≠ .nop) : exec i s = .next (start i s) := by
  rw [exec_idle hi, acceptCommand_starts (locked_of_no_error herr _) hphase hrange hn]

theorem exec_badPhase {i : Instr} {s : State} (hi : s.inflight = none) (herr : s.err = false)
    (hphase : legal s.phase i = false) : exec i s = .next (recordError .badPhase i.opcode s) := by
  rw [exec_idle hi, acceptCommand_badPhase (locked_of_no_error herr _) hphase]

theorem exec_badRange {i : Instr} {s : State} (hi : s.inflight = none) (herr : s.err = false)
    (hphase : legal s.phase i = true) (hrange : inRange i = false) :
    exec i s = .next (recordError .badRange i.opcode s) := by
  rw [exec_idle hi, acceptCommand_badRange (locked_of_no_error herr _) hphase hrange]

/-- R59: the legal ranges lie within the 8-bit operand fields. -/
theorem wellFormed_of_inRange {i : Instr} (h : inRange i = true) : i.wellFormed = true := by
  cases i with
  | xorRate offset count =>
    have hsum : offset + count ≤ 136 := by simpa [inRange] using h
    simp [Instr.wellFormed, fitsField, show offset < 256 by omega, show count < 256 by omega]
  | absorbFinal len =>
    have hlen : len ≤ 135 := by simpa [inRange] using h
    simp [Instr.wellFormed, fitsField, show len < 256 by omega]
  | squeeze count =>
    obtain ⟨-, hcount⟩ : 1 ≤ count ∧ count ≤ 136 := by simpa [inRange] using h
    simp [Instr.wellFormed, fitsField, show count < 256 by omega]
  | _ => rfl

/-- R95, R98: an accepted command's word is in flight with BUF as its snapshot, and its completion decodes that word. -/
theorem runToCompletion_of_accepted {i : Instr} {s : State} (hi : s.inflight = none) (herr : s.err = false)
    (hphase : legal s.phase i = true) (hrange : inRange i = true) (hn : i ≠ .nop) :
    runToCompletion i s = .next (finish (effectOf i s.buf (start i s))) := by
  rw [runToCompletion, exec_starts hi herr hphase hrange hn]
  exact exec_inflight (start_inflight i s) (decode_encode (wellFormed_of_inRange hrange)) hn

/-! ## The padded final block -/

/-- R85: the bytes of `Pad(data, LEN)` below LEN are the data's. -/
theorem getElem_pad_of_lt (data : Block) {len p : Nat} (hp : p < 136) (h : p < len) : (pad data len)[p] = data[p] := by
  unfold pad
  rw [Vector.getElem_ofFn]
  exact if_pos h

/-- R84: byte `p` of the padding of a final block that holds `len` message bytes. -/
def paddingByte (len p : Nat) : Byte :=
  if len = 135 then 0x86 else if p = len then 0x06 else if p = 135 then 0x80 else 0x00

/-- R85: the bytes of `Pad(data, LEN)` from LEN on are padding, whatever the data. -/
theorem getElem_pad_of_le (data : Block) {len p : Nat} (hp : p < 136) (h : len ≤ p) :
    (pad data len)[p] = paddingByte len p := by
  unfold pad
  rw [Vector.getElem_ofFn]
  exact if_neg h.not_gt

/-- R85: `Pad` reads only the first LEN bytes of its data. -/
theorem pad_congr {data other : Block} {len : Nat} (h : ∀ (p : Nat) (_ : p < 136), p < len → other[p] = data[p]) :
    pad other len = pad data len := by
  refine Vector.ext fun p hp => ?_
  by_cases hlt : p < len
  · rw [getElem_pad_of_lt other hp hlt, getElem_pad_of_lt data hp hlt, h p hp hlt]
  · rw [getElem_pad_of_le other hp (not_lt.1 hlt), getElem_pad_of_le data hp (not_lt.1 hlt)]

/-! ## The padded message -/

/-- R83: the padding fills the message's last block. -/
theorem length_paddingOf (len : Nat) : (paddingOf len).length = 136 - len % 136 := by
  unfold paddingOf
  split
  next h => simp [h]
  next => simp only [List.length_append, List.length_cons, List.length_nil, List.length_replicate]; omega

/-- R84: the source's padding, read at positions of the last block, is that of `Pad`. -/
theorem getElem?_paddingOf {len p : Nat} (hp : p < 136) (hlen : len % 136 ≤ p) :
    (paddingOf len)[p - len % 136]? = some (paddingByte (len % 136) p) := by
  unfold paddingOf paddingByte
  split
  next h =>
    obtain rfl : p = 135 := by omega
    simp [h]
  next h =>
    obtain rfl | ⟨k, rfl⟩ : p = len % 136 ∨ ∃ k, p = len % 136 + (k + 1) :=
      (Nat.eq_or_lt_of_le hlen).imp Eq.symm fun hlt => ⟨p - len % 136 - 1, by omega⟩
    · simp
    · have hne : len % 136 + (k + 1) ≠ len % 136 := by omega
      rw [Nat.add_sub_cancel_left, if_neg hne]
      obtain hlast | hzero : k = 134 - len % 136 ∨ k < 134 - len % 136 := by omega
      · have hpos : len % 136 + (k + 1) = 135 := by omega
        rw [if_pos hpos]
        simp [hlast]
      · have hpos : len % 136 + (k + 1) ≠ 135 := by omega
        rw [if_neg hpos]
        simp [List.getElem?_append, hzero]

theorem length_paddedMessage (msg : List Byte) :
    (paddedMessage msg).length = msg.length + (136 - msg.length % 136) := by
  rw [paddedMessage, List.length_append, length_paddingOf]

/-- R88: a padded message has one block more than the message has full blocks. -/
theorem length_paddedMessage_div (msg : List Byte) : (paddedMessage msg).length / 136 = msg.length / 136 + 1 := by
  rw [length_paddedMessage]
  omega

/-! ## Absorption block by block -/

theorem absorbBlocks_succ (A : Lanes) (data : List Byte) (n : Nat) :
    absorbBlocks A data (n + 1) = absorbBlock (absorbBlocks A data n) (blockOfList (messageBlock data n)) := by
  simp [absorbBlocks, List.range_succ]

/-- R88: absorption depends on the blocks absorbed alone. -/
theorem absorbBlocks_congr (A : Lanes) {data other : List Byte} {n : Nat}
    (h : ∀ k < n, messageBlock data k = messageBlock other k) : absorbBlocks A data n = absorbBlocks A other n := by
  refine List.foldl_ext _ _ _ fun B k hk => ?_
  rw [h k (List.mem_range.1 hk)]

/-- R88: what follows a message does not change its full blocks. -/
theorem messageBlock_append_of_full (msg rest : List Byte) {k : Nat} (hk : k < msg.length / 136) :
    messageBlock (msg ++ rest) k = messageBlock msg k := by
  have hstart : 136 * k ≤ msg.length := by omega
  have hfull : 136 ≤ (msg.drop (136 * k)).length := by rw [List.length_drop]; omega
  rw [messageBlock, messageBlock, List.drop_append_of_le_length hstart, List.take_append_of_le_length hfull]

/-- R66: a byte of a message's block, as a byte of the message. -/
theorem getElem_blockOfList_messageBlock (data : List Byte) (k : Nat) {p : Nat} (hp : p < 136) :
    (blockOfList (messageBlock data k))[p] = (data[136 * k + p]?).getD 0 := by
  simp [blockOfList, messageBlock]

/-- R83, R85, R88: the last block of the padded message is `Pad` of any block that begins with the message's rest. -/
theorem blockOfList_lastBlock {msg : List Byte} {last : Block}
    (h : ∀ (p : Nat) (_ : p < 136), p < msg.length % 136 → msg[136 * (msg.length / 136) + p]? = some last[p]) :
    blockOfList (messageBlock (paddedMessage msg) (msg.length / 136)) = pad last (msg.length % 136) := by
  have hdiv := Nat.div_add_mod msg.length 136
  refine Vector.ext fun p hp => ?_
  rw [getElem_blockOfList_messageBlock _ _ hp, paddedMessage]
  by_cases hlt : p < msg.length % 136
  · rw [List.getElem?_append_left (by omega), h p hp hlt, getElem_pad_of_lt last hp hlt, Option.getD_some]
  · have hpos : 136 * (msg.length / 136) + p - msg.length = p - msg.length % 136 := by omega
    rw [List.getElem?_append_right (by omega), hpos, getElem?_paddingOf hp (not_lt.1 hlt),
      getElem_pad_of_le last hp (not_lt.1 hlt), Option.getD_some]

end Sys2Proof.Machine

namespace Sys2Proof.Proofs
open Sys2Proof.Machine

/-- Settles O35: ABSORB is legal in phase ABSORB alone and has no operand, and its word in flight decodes to it. -/
theorem absorbCommand : Obligations.AbsorbCommand := by
  have hdecode : decode 0x00000004 = .ok .absorb := by decide
  refine ⟨fun s hi herr hphase => ?accepted, fun s hi herr hphase => ?badPhase, fun s snap hi => ?completed⟩
  case accepted => exact exec_starts hi herr (by simp [legal, hphase]) rfl (by simp)
  case badPhase => exact exec_badPhase hi herr (by simp [legal, hphase])
  case completed =>
    rw [exec_inflight hi hdecode (by simp), effectOf, absorbEffect, absorbBlock]
    rfl

/-- Settles O36: ABSORB_FINAL is legal in phase ABSORB alone, and its word in flight decodes to it. -/
theorem absorbFinalCommand : Obligations.AbsorbFinalCommand := by
  intro n hn
  have hword : encode (.absorbFinal n) = BitVec.ofNat 32 (0x5 + 256 * n) := encode_eq_ofNat hn (Nat.zero_lt_succ 255)
  have hdecode : decode (BitVec.ofNat 32 (0x5 + 256 * n)) = .ok (.absorbFinal n) :=
    hword ▸ decode_encode (by simp [Instr.wellFormed, fitsField, hn])
  refine ⟨fun s hi herr hphase hrange => ?accepted, fun s hi herr hphase => ?badPhase,
    fun s hi herr hphase hrange => ?badRange, fun s snap hi => ?completed⟩
  case accepted =>
    rw [exec_starts hi herr (by simp [legal, hphase]) (by simp [inRange, hrange]) (by simp), start, hword]
  case badPhase => exact exec_badPhase hi herr (by simp [legal, hphase])
  case badRange => exact exec_badRange hi herr (by simp [legal, hphase]) (by simp [inRange, hrange])
  case completed =>
    rw [exec_inflight hi hdecode (by simp), effectOf, absorbFinalEffect, absorbBlock]
    rfl

/-- Settles O42: the padding is as long as what is missing to the next multiple of 136. -/
theorem paddedLengthIsTheNextMultiple : Obligations.PaddedLengthIsTheNextMultiple := by
  intro msg
  rw [length_paddedMessage]
  refine ⟨rfl, ?multiple, ?longer, fun m hm hlt => ?smallest, ?atLeastOne, ?atMostBlock⟩ <;> omega

/-- Settles O43: below LEN the block is the data, and from LEN on it is padding. -/
theorem padBuildsTheFinalBlock : Obligations.PadBuildsTheFinalBlock := by
  intro data len hl
  refine ⟨fun p h => getElem_pad_of_lt data _ h, fun h => ?joined, fun h => ⟨?first, ?last⟩,
    fun p hp h => ?between, fun other h => pad_congr fun p _ hlt => h p hlt⟩
  case joined => rw [getElem_pad_of_le data _ hl, paddingByte, if_pos h]
  case first => rw [getElem_pad_of_le data _ le_rfl, paddingByte, if_neg h.ne, if_pos rfl]
  case last => rw [getElem_pad_of_le data _ hl, paddingByte, if_neg h.ne, if_neg h.ne', if_pos rfl]
  case between =>
    have hlen : len ≠ 135 := by omega
    rw [getElem_pad_of_le data _ h.le, paddingByte, if_neg hlen, if_neg h.ne', if_neg hp.ne]

/-- Settles O48: each command is accepted, so its two steps are its effect on the snapshot of the one BUF. -/
theorem absorbEqualsXorRateThenPermute : Obligations.AbsorbEqualsXorRateThenPermute := by
  intro s hi herr hphase
  have habsorb := runToCompletion_of_accepted (i := .absorb) hi herr (by simp [legal, hphase]) rfl (by simp)
  have hxor := runToCompletion_of_accepted (i := .xorRate 0 136) hi herr (by simp [legal, hphase]) rfl (by simp)
  have hpermute := runToCompletion_of_accepted (i := .permute)
    (s := finish (effectOf (.xorRate 0 136) s.buf (start (.xorRate 0 136) s))) rfl (by simp [effectOf, herr])
    (by simp [effectOf, legal, hphase]) rfl (by simp)
  refine ⟨_, _, habsorb, (congrArg (andThen · _) hxor).trans hpermute, ?lanes, rfl, rfl, rfl⟩
  case lanes => simp [effectOf, absorbEffect, absorbBlock]

/-- Settles O49: the full blocks of the padded message are the message's own, and its last block is the padded rest. -/
theorem blockAbsorptionEqualsPaddedMessage : Obligations.BlockAbsorptionEqualsPaddedMessage := by
  intro A msg last h
  have hfull : absorbBlocks A (paddedMessage msg) (msg.length / 136) = absorbBlocks A msg (msg.length / 136) :=
    absorbBlocks_congr A fun _ hk => messageBlock_append_of_full msg _ hk
  rw [length_paddedMessage_div, absorbBlocks_succ, hfull, blockOfList_lastBlock h]

end Sys2Proof.Proofs

/-! What SQUEEZE reads of the matrix, and why the capacity lanes stay hidden from the host until a permutation
completes: no host step looks at the matrix, and the other commands' effects act on the rate by the rate alone
(spec/43_squeeze.md R89 to R92, spec/60_exceptions.md R111). -/

namespace Sys2Proof.Machine

/-! ## The bytes of OUT -/

/-- R89: SQUEEZE leaves the first COUNT rate bytes in OUT and zeroes after them. -/
theorem squeezeOut_eq_ofFn (A : Lanes) (c : Nat) :
    squeezeOut A c = Vector.ofFn fun p : Fin 136 => if p.val < c then stateByte A (ratePos p) else 0 := by
  unfold squeezeOut
  congr 1
  funext p
  rw [List.getD_eq_getElem?_getD]
  split
  next hlt => rw [getElem?_readRate A p.isLt hlt, Option.getD_some]
  next hge =>
    have hpast : (readRate A c).length ≤ p.val := by
      simp only [readRate, List.length_map, List.length_take]
      omega
    rw [List.getElem?_eq_none hpast, Option.getD_none]

/-! ## The rate and the capacity -/

/-- R23, R71: two matrices agree in the rate, the lanes 0 to 16. -/
def SameRate (A B : Lanes) : Prop := ∀ (k : Nat) (_ : k < 17), B[k] = A[k]

/-- R71, R89: what SQUEEZE leaves in OUT depends on the rate alone. -/
theorem squeezeOut_congr {A B : Lanes} (h : SameRate A B) (c : Nat) : squeezeOut B c = squeezeOut A c := by
  unfold squeezeOut
  rw [readRate_congr fun k _ hk => h k hk]

theorem sameRate_xorStateByte {A B : Lanes} (h : SameRate A B) (p : Fin 136) (v : Byte) :
    SameRate (xorStateByte A (ratePos p) v) (xorStateByte B (ratePos p) v) := by
  intro k hk
  have hlane : (ratePos p).val / 8 < 17 := by
    have hp := p.isLt
    simp only [ratePos]
    omega
  simp only [xorStateByte, Vector.getElem_set, h _ hlane, h k hk]

/-- R68, R71: what XorRate leaves in the rate depends on the rate alone. -/
theorem sameRate_xorRate {A B : Lanes} (h : SameRate A B) (data : Block) (off cnt : Nat) :
    SameRate (xorRate A data off cnt) (xorRate B data off cnt) := by
  rw [xorRate_eq_foldl, xorRate_eq_foldl]
  refine List.foldl_rel h fun p _ C D hCD => ?_
  unfold xorRateStep
  split
  next => exact sameRate_xorStateByte hCD p _
  next => exact hCD

/-- R92: states that differ in their matrices alone, by lanes of the capacity. -/
theorem agreeButCapacity_setLanes {s : State} {A : Lanes} (h : SameRate s.lanes A) :
    agreeButCapacity s (setLanes A s) := ⟨rfl, h⟩

theorem agreeButCapacity_iff {s t : State} :
    agreeButCapacity s t ↔ ∃ A, t = setLanes A s ∧ SameRate s.lanes A := by
  constructor
  · rintro ⟨ht, hrate⟩
    exact ⟨t.lanes, ht, hrate⟩
  · rintro ⟨A, rfl, hrate⟩
    exact agreeButCapacity_setLanes hrate

theorem agreeButCapacity_refl (s : State) : agreeButCapacity s s := ⟨rfl, fun _ _ => rfl⟩

/-! ## No host step looks at the matrix -/

theorem acceptCommand_setLanes (i : Instr) (A : Lanes) (s : State) :
    acceptCommand i (setLanes A s) = setLanes A (acceptCommand i s) := by
  simp only [acceptCommand, apply_ite (setLanes A)]
  rfl

/-- R95: acceptance of a word neither reads nor writes the matrix. -/
theorem acceptWord_setLanes {s : State} (hi : s.inflight = none) (w : Word) (A : Lanes) :
    acceptWord w (setLanes A s) = andThen (acceptWord w s) (.next ∘ setLanes A) := by
  have hlock : locked (setLanes A s) (opField w) = locked s (opField w) := rfl
  unfold acceptWord
  rw [hlock]
  split
  next => rfl
  next =>
    cases decode w with
    | error e => rfl
    | ok i =>
      have hidle : (setLanes A s).inflight = none := hi
      simp only [exec_idle hi, exec_idle hidle, acceptCommand_setLanes]
      rfl

/-- R49, R51: a write that is not held neither reads nor writes the matrix. -/
theorem memWrite_setLanes {s : State} {off : Offset} {size : Nat} (hheld : heldWrite s off size = false) (w : Word)
    (A : Lanes) : memWrite off size w (setLanes A s) = andThen (memWrite off size w s) (.next ∘ setLanes A) := by
  unfold memWrite
  cases hc : checkAccess off size with
  | error f => rfl
  | ok target =>
    cases target with
    | cmd =>
      have hi : s.inflight = none := by simpa [heldWrite, hc, busy] using hheld
      exact acceptWord_setLanes hi w A
    | _ => rfl

/-- R52, R111: a host step neither reads nor writes the matrix. -/
theorem hostStep_setLanes (A : Lanes) (s : State) :
    hostStep (setLanes A s) = andThen (hostStep s) (.next ∘ setLanes A) := by
  unfold hostStep
  rw [setLanes_host, setLanes_base]
  cases s.host with
  | nil => rfl
  | cons access rest =>
    cases access with
    | read addr size =>
      dsimp only
      cases offsetOf s.base addr with
      | none => rfl
      | some off =>
        have hread : memRead (setLanes A s) off size = memRead s off size := rfl
        simp only [hread]
        cases memRead s off size <;> rfl
    | write addr size w =>
      dsimp only
      cases offsetOf s.base addr with
      | none => rfl
      | some off =>
        have hheld : heldWrite (setLanes A s) off size = heldWrite s off size := rfl
        simp only [hheld]
        split
        next => rfl
        next h => exact memWrite_setLanes (s := popHost s) (Bool.eq_false_of_not_eq_true h) w A
    | wait =>
      have hbusy : busy (setLanes A s) = busy s := rfl
      simp only [hbusy]
      split <;> rfl
    | waitIrq =>
      have hirq : irq (setLanes A s) = irq s := rfl
      simp only [hirq]
      split <;> rfl

theorem hostStep_lanes {s t : State} (h : hostStep s = .next t) : t.lanes = s.lanes := by
  obtain hsame | ⟨w, rest, e, -, -, rfl⟩ := hostStep_sponge h
  · exact hsame.lanes
  · rfl

/-! ## Steps from states that differ in the capacity -/

/-- R92: two results are the same stop, or next states that differ only in the capacity. -/
inductive ResultsAgree : Result → Result → Prop where
  | next {t t' : State} (h : agreeButCapacity t t') : ResultsAgree (.next t) (.next t')
  | fault (f : Fault) : ResultsAgree (.fault f) (.fault f)
  | refused (r : Refusal) : ResultsAgree (.refused r) (.refused r)

theorem hostStep_resultsAgree {s : State} {A : Lanes} (h : SameRate s.lanes A) :
    ResultsAgree (hostStep s) (hostStep (setLanes A s)) := by
  rw [hostStep_setLanes]
  cases hh : hostStep s with
  | next t => exact .next (agreeButCapacity_setLanes (hostStep_lanes hh ▸ h))
  | fault f => exact .fault f
  | refused r => exact .refused r

/-- R39: whether a permuting command is in flight, by the command that the word spells. -/
theorem permuting_of_decode {s : State} {fl : InFlight} {i : Instr} (hi : s.inflight = some fl)
    (hd : decode fl.cmd = .ok i) :
    permuting s = (i.opcode == 0x3#4 || i.opcode == 0x4#4 || i.opcode == 0x5#4) := by
  simp [permuting, hi, decode_opcode hd]

/-- R70, R89, R97: INIT, XOR_RATE and SQUEEZE do not carry the capacity into anything else. -/
theorem effectOf_agreeButCapacity {s : State} {A : Lanes} {fl : InFlight} {i : Instr} (h : SameRate s.lanes A)
    (hp : permuting s = false) (hi : s.inflight = some fl) (hd : decode fl.cmd = .ok i) :
    agreeButCapacity (finish (effectOf i fl.snap s)) (finish (effectOf i fl.snap (setLanes A s))) := by
  rw [permuting_of_decode hi hd] at hp
  cases i with
  | nop => exact ⟨rfl, h⟩
  | init => exact agreeButCapacity_refl _
  | xorRate o c => exact ⟨rfl, sameRate_xorRate h fl.snap o c⟩
  | squeeze c =>
    refine ⟨?_, h⟩
    simp only [effectOf, squeezeEffect, setLanes_lanes, squeezeOut_congr h c]
    rfl
  | permute => simp [Instr.opcode] at hp
  | absorb => simp [Instr.opcode] at hp
  | absorbFinal n => simp [Instr.opcode] at hp

/-- R98, R111: the completion of a command that does not permute keeps the capacity hidden. -/
theorem complete_resultsAgree {s : State} {A : Lanes} (h : SameRate s.lanes A) (hp : permuting s = false) :
    ResultsAgree (complete s) (complete (setLanes A s)) := by
  cases hi : s.inflight with
  | none =>
    simp only [complete, setLanes_inflight, hi]
    exact .next (agreeButCapacity_setLanes h)
  | some fl =>
    have hi' : (setLanes A s).inflight = some fl := hi
    cases hd : decode fl.cmd with
    | error e =>
      simp only [complete, hi, hi', hd]
      exact .fault _
    | ok i =>
      rw [complete_eq hi hd, complete_eq hi' hd]
      by_cases hn : i = .nop
      · subst hn
        rw [exec_nop, exec_nop]
        exact .next (agreeButCapacity_setLanes h)
      · rw [exec_inflight hi hd hn, exec_inflight hi' hd hn]
        exact .next (effectOf_agreeButCapacity h hp hi hd)

theorem step_setLanes (A : Lanes) (s : State) :
    step (setLanes A s) =
      if s.secondHost ≠ [] then .refused .twoHosts
      else if resetDue s then .next (applyReset s)
      else if completionDue s then complete (setLanes A (advance s))
      else hostStep (setLanes A (advance s)) := rfl

/-- R92, R111: the steps from states that differ only in the capacity, but for the completion of a permuting command. -/
theorem step_resultsAgree {s s' : State} (h : agreeButCapacity s s')
    (hp : ¬ (completionDue s = true ∧ permuting s = true)) : ResultsAgree (step s) (step s') := by
  obtain ⟨A, rfl, hrate⟩ := agreeButCapacity_iff.1 h
  rw [step_setLanes, step]
  split_ifs with hsecond hreset hdue
  · exact .refused _
  · exact .next (agreeButCapacity_refl _)
  · exact complete_resultsAgree (s := advance s) hrate (Bool.eq_false_of_not_eq_true fun hperm => hp ⟨hdue, hperm⟩)
  · exact hostStep_resultsAgree (s := advance s) hrate

end Sys2Proof.Machine

namespace Sys2Proof.Proofs
open Sys2Proof.Machine

/-- Settles O57: the results of the two steps agree, and next states that differ only in the capacity have the same OUT
and the same reads. -/
theorem capacityIsOpaqueToTheHost : Obligations.CapacityIsOpaqueToTheHost := by
  intro s s' hagree hp
  have hresults := step_resultsAgree hagree hp
  generalize step s = r, step s' = r' at hresults
  cases hresults with
  | next h =>
    refine ⟨fun t ht => ?_, nofun, nofun⟩
    obtain rfl := Host.Outcome.next.inj ht
    obtain ⟨A, rfl, -⟩ := agreeButCapacity_iff.1 h
    exact ⟨_, rfl, h, rfl, rfl⟩
  | fault f => exact ⟨nofun, fun _ hf => hf, nofun⟩
  | refused r => exact ⟨nofun, nofun, fun _ hr => hr⟩

/-- Settles O37: SQUEEZE is legal in phase SQUEEZE alone, and its word in flight decodes to it. -/
theorem squeezeCommand : Obligations.SqueezeCommand := by
  intro c hc
  have hword : encode (.squeeze c) = BitVec.ofNat 32 (0x6 + 65536 * c) := encode_eq_ofNat (Nat.zero_lt_succ 255) hc
  have hdecode : decode (BitVec.ofNat 32 (0x6 + 65536 * c)) = .ok (.squeeze c) :=
    hword ▸ decode_encode (by simp [Instr.wellFormed, fitsField, hc])
  refine ⟨fun s hi herr hphase hpos hmax => ?accepted, fun s hi herr hphase => ?badPhase,
    fun s hi herr hphase hrange => ?badRange, fun s snap hi => ?completed⟩
  case accepted =>
    rw [exec_starts hi herr (by simp [legal, hphase]) (by simp [inRange, hpos, hmax]) (by simp), start, hword]
  case badPhase => exact exec_badPhase hi herr (by simp [legal, hphase])
  case badRange =>
    have hout : inRange (.squeeze c) = false := by
      simp only [inRange, decide_eq_false_iff_not]
      omega
    exact exec_badRange hi herr (by simp [legal, hphase]) hout
  case completed =>
    rw [exec_inflight hi hdecode (by simp)]
    simp only [effectOf, squeezeEffect, squeezeOut_eq_ofFn]
    rfl

end Sys2Proof.Proofs

/-! The priority chain of acceptance, the words of NOP and INIT, the completion of the command in flight, and the
commands of `SHA3_256` one after another (spec/44_sponge_ctrl.md R94 to R99). -/

namespace Sys2Proof.Machine

/-! ## Acceptance read from the fields of the word -/

/-- R103: the error lock discards every opcode but 0x0 and 0x1. -/
theorem locked_eq_true_iff {s : State} {op : BitVec 4} :
    locked s op = true ↔ s.err = true ∧ op ≠ 0x0 ∧ op ≠ 0x1 := by
  simp [locked, and_assoc]

theorem locked_nop (s : State) : locked s 0x0 = false := by simp [locked]

theorem locked_init (s : State) : locked s 0x1 = false := by simp [locked]

/-- R60: every row of the opcode map is a command's. -/
theorem exists_command_of_mem_opcodeRows {row : Word × Word} (h : row ∈ opcodeRows) :
    ∃ i : Instr, row = (i.rowMatch, i.rowMask) := by
  simp only [opcodeRows, List.mem_cons, List.not_mem_nil, or_false] at h
  obtain rfl | rfl | rfl | rfl | rfl | rfl | rfl := h
  · exact ⟨.nop, rfl⟩
  · exact ⟨.init, rfl⟩
  · exact ⟨.xorRate 0 0, rfl⟩
  · exact ⟨.permute, rfl⟩
  · exact ⟨.absorb, rfl⟩
  · exact ⟨.absorbFinal 0, rfl⟩
  · exact ⟨.squeeze 0, rfl⟩

/-- R62: a word of a command's opcode matches no row exactly when a field is set that should be 0. -/
theorem matchesNoRow_iff {w : Word} {i : Instr} (hc : commandOf (opField w) (faField w) (fbField w) = some i) :
    matchesNoRow w = true ↔ ¬ unusedFieldsZero w := by
  refine ⟨not_unusedFieldsZero_of_matchesNoRow hc, fun hz => List.all_eq_true.2 fun row hrow => ?_⟩
  obtain ⟨j, rfl⟩ := exists_command_of_mem_opcodeRows hrow
  have hno : w &&& j.rowMask ≠ j.rowMatch := fun hmatch => hz ((matches_row_iff_fields w j).1 hmatch).2
  simp [matchesRow, hno]

/-- R59: the operands of the command that a word spells are the word's operand fields. -/
theorem operands_of_decode {w : Word} {i : Instr} (hd : decode w = .ok i) :
    i.fa = (faField w).toNat ∧ i.fb = (fbField w).toNat := by
  obtain ⟨hc, -, -, hfa, hfb⟩ := decode_eq_ok_iff.1 hd
  unfold commandOf at hc
  split_ifs at hc with hop <;> obtain rfl := Option.some.inj hc <;> simp_all [usesFa, usesFb, Instr.fa, Instr.fb]

/-- R94: the phases in which a command is illegal, by its opcode. -/
theorem legal_eq_false_iff {p : Phase} {i : Instr} :
    legal p i = false ↔ ((i.opcode = 0x2 ∨ i.opcode = 0x4 ∨ i.opcode = 0x5) ∧ p ≠ .absorb) ∨
      (i.opcode = 0x3 ∧ p = .idle) ∨ (i.opcode = 0x6 ∧ p ≠ .squeeze) := by
  cases i <;> simp [legal, Instr.opcode]

/-- R59: the operands that are out of range, by the opcode. -/
theorem inRange_eq_false_iff {i : Instr} :
    inRange i = false ↔ (i.opcode = 0x2 ∧ 136 < i.fa + i.fb) ∨ (i.opcode = 0x5 ∧ 135 < i.fa) ∨
      (i.opcode = 0x6 ∧ (i.fb = 0 ∨ 136 < i.fb)) := by
  cases i with
  | squeeze count => simp [inRange, Instr.opcode, Instr.fb, imp_iff_not_or]
  | _ => simp [inRange, Instr.opcode, Instr.fa, Instr.fb]

theorem eq_nop_iff_opcode {i : Instr} : i = .nop ↔ i.opcode = 0x0 := by
  cases i <;> simp [Instr.opcode]

theorem acceptWord_eq_acceptCommand {w : Word} {i : Instr} {s : State} (hi : s.inflight = none)
    (hd : decode w = .ok i) : acceptWord w s = .next (acceptCommand i s) :=
  (acceptWord_of_decode hi hd).trans (exec_idle hi i)

/-- R95: what goes in flight is the accepted word itself (log 18). -/
theorem start_of_decode {w : Word} {i : Instr} (hd : decode w = .ok i) (s : State) :
    start i s = { s with
      inflight := some { cmd := w, snap := s.buf }, latLeft := drawLatency s, latDraws := s.latDraws.tail,
      rnd := 0 } := by
  rw [start, encode_of_decode hd]

/-! ## The words of NOP and INIT -/

/-- R62: a word of a command's opcode that is not the command's encoding has a field set that should be 0. -/
theorem decode_of_ne_encode {w : Word} {i : Instr} (hc : commandOf (opField w) (faField w) (fbField w) = some i)
    (hne : w ≠ encode i) : decode w = .error .reservedBits :=
  decode_of_not_unusedFieldsZero hc fun hz => hne (encode_of_decode (decode_of_unusedFieldsZero hc hz)).symm

/-- R95: an error in a word that the lock lets pass is recorded. -/
theorem acceptWord_records_of_not_locked {w : Word} {e : ErrCode} {s : State} (hd : decode w = .error e)
    (hl : locked s (opField w) = false) : acceptWord w s = .next (recordError e (opField w) s) := by
  rw [acceptWord_of_decode_error hd, hl]
  rfl

/-- R62, R96, R97: a word of a command without operands that is not the command's encoding records RESERVED_BITS, where
the lock lets it pass. -/
theorem acceptWord_records_reservedBits {w : Word} {i : Instr} {s : State} (hop : opField w = i.opcode)
    (hc : ∀ fa fb, commandOf i.opcode fa fb = some i) (hne : w ≠ encode i) (hl : locked s i.opcode = false) :
    acceptWord w s = .next (recordError .reservedBits i.opcode s) := by
  rw [← hop] at hc hl ⊢
  exact acceptWord_records_of_not_locked (decode_of_ne_encode (hc _ _) hne) hl

/-- R94, R103: INIT is accepted in every phase, and the error lock does not block it. -/
theorem exec_init_starts {s : State} (hi : s.inflight = none) : exec .init s = .next (start .init s) := by
  rw [exec_idle hi, acceptCommand_starts (locked_init s) rfl rfl (by simp)]

/-- R97, R98: INIT in flight completes with its effect. -/
theorem exec_init_completes {s : State} {snap : Block} (hi : s.inflight = some { cmd := 0x00000001, snap := snap }) :
    exec .init s = .next (finish (initEffect s)) :=
  have hd : decode 0x00000001 = .ok .init := by decide
  exec_inflight hi hd (by simp)

/-- R34: only INIT's effect writes ERR. -/
theorem effectOf_err {i : Instr} (hinit : i ≠ .init) (snap : Block) (s : State) :
    (effectOf i snap s).err = s.err := by
  cases i with
  | init => exact absurd rfl hinit
  | _ => rfl

/-- R102: acceptance never clears ERR. -/
theorem acceptCommand_err_of_err {s : State} (herr : s.err = true) (i : Instr) : (acceptCommand i s).err = true := by
  obtain h | ⟨-, -, h⟩ | ⟨-, -, -, h⟩ | ⟨-, -, -, -, h⟩ := acceptCommand_cases i s <;> rw [h]
  · exact herr
  · rfl
  · rfl
  · exact herr

/-- R34: no command's step but INIT's clears ERR. -/
theorem exec_err_of_err {i : Instr} {s t : State} (h : exec i s = .next t) (herr : s.err = true) (hinit : i ≠ .init) :
    t.err = true := by
  obtain ⟨-, rfl⟩ | ⟨fl, -, -, rfl⟩ | rfl := exec_eq_next h
  · exact acceptCommand_err_of_err herr i
  · exact (effectOf_err hinit fl.snap s).trans herr
  · exact herr

/-! ## The completion of the command in flight -/

/-- R98: an undisturbed step that is the core's completes the command in flight. -/
theorem step_of_completionDue {s : State} (hu : undisturbed s) (hdue : completionDue s = true) :
    step s = complete (advance s) := by
  obtain ⟨hsecond, hreset⟩ := hu
  simp [step, hsecond, hreset, hdue]

/-- R46: the faults of the bus name an access that it does not support, never a completion. -/
theorem checkAccess_error {off : Offset} {size : Nat} {f : Fault} (h : checkAccess off size = .error f) :
    f ≠ .noCommandInFlight := by
  unfold checkAccess at h
  split_ifs at h with hsize halign
  · simp [← Except.error.inj h]
  · simp [← Except.error.inj h]
  · cases ht : targetOf off with
    | none =>
      rw [ht] at h
      simp [← Except.error.inj h]
    | some t => simp [ht] at h

theorem memRead_error {s : State} {off : Offset} {size : Nat} {f : Fault} (h : memRead s off size = .error f) :
    f ≠ .noCommandInFlight := by
  unfold memRead at h
  cases hc : checkAccess off size with
  | error g =>
    rw [hc] at h
    exact Except.error.inj h ▸ checkAccess_error hc
  | ok t =>
    cases t with
    | cmd =>
      simp only [hc, Except.error.injEq] at h
      simp [← h]
    | _ => simp [hc] at h

theorem memWrite_fault {off : Offset} {size : Nat} {w : Word} {s : State} {f : Fault}
    (h : memWrite off size w s = .fault f) : f ≠ .noCommandInFlight := by
  obtain ⟨t, ht⟩ := acceptWord_answers w s
  unfold memWrite at h
  cases hc : checkAccess off size with
  | error g =>
    rw [hc] at h
    exact Host.Outcome.fault.inj h ▸ checkAccess_error hc
  | ok target => cases target <;> simp [hc, ht] at h <;> simp [← h]

/-- R46: a host step faults only at a read or a write that the bus answers with an error. -/
theorem hostStep_fault {s : State} {f : Fault} (h : hostStep s = .fault f) :
    (∃ off size, memRead s off size = .error f) ∨ ∃ off size w, memWrite off size w (popHost s) = .fault f := by
  unfold hostStep at h
  split at h
  next => simp at h
  next =>
    split at h
    next => simp at h
    next off _ =>
      split at h
      next hread => exact .inl ⟨off, _, Host.Outcome.fault.inj h ▸ hread⟩
      next => simp at h
  next =>
    split at h
    next => simp at h
    next off _ =>
      split at h
      next => simp at h
      next => exact .inr ⟨off, _, _, h⟩
  next => split at h <;> simp at h
  next => split at h <;> simp at h

/-- R98: with a command in flight as the invariant asks, a completion that is due has a next state. -/
theorem step_completes_of_due {s : State} (hinv : StateInv s) (hu : undisturbed s) (hdue : completionDue s = true) :
    ∃ t, step s = .next t ∧ t.inflight = none ∧ t.doneP = true := by
  obtain ⟨hbusy, hlat⟩ := (completionDue_iff s).1 hdue
  obtain ⟨fl, hfl⟩ := Option.isSome_iff_exists.1 hbusy
  obtain ⟨i, hstep⟩ := step_completes hinv hu hfl hlat
  exact ⟨_, hstep, rfl, rfl⟩

/-- R98: no step stops for want of a command to complete. -/
theorem step_ne_noCommandInFlight {s : State} (hinv : StateInv s) : step s ≠ .fault .noCommandInFlight := by
  intro hfault
  obtain ⟨-, h⟩ | ⟨-, -, h⟩ | ⟨hsecond, hreset, hdue, -⟩ | ⟨-, -, -, h⟩ := step_cases s
  · simp [h] at hfault
  · simp [h] at hfault
  · obtain ⟨t, ht, -⟩ := step_completes_of_due hinv ⟨hsecond, hreset⟩ hdue
    simp [ht] at hfault
  · obtain ⟨off, size, hread⟩ | ⟨off, size, w, hwrite⟩ := hostStep_fault (h.symm.trans hfault)
    · exact memRead_error hread rfl
    · exact memWrite_fault hwrite rfl

/-! ## The commands of a hash -/

/-- R30: STATUS with no command in flight and no error shows the phase and OUT_VALID. -/
theorem statusWord_of_no_error {s : State} {p : Phase} {v : Bool} (hi : s.inflight = none) (herr : s.err = false)
    (hcode : s.errCode = 0) (hop : s.errOp = 0) (hphase : s.phase = p) (hvalid : s.outValid = v) :
    statusWord s = (phaseBits p).setWidth 32 <<< 1 ||| flagWord v <<< 3 := by
  simp [statusWord, busy, hi, herr, hcode, hop, hphase, hvalid, flagWord]

/-- R94, R99: the next command of a hash finds none in flight, no error, its phase, and the matrix that the commands
before it left. -/
structure ReadyIn (p : Phase) (A : Lanes) (s : State) : Prop where
  idle : s.inflight = none
  no_error : s.err = false
  no_code : s.errCode = 0
  no_op : s.errOp = 0
  phase : s.phase = p
  lanes : s.lanes = A

theorem runToCompletion_init {s : State} (hi : s.inflight = none) :
    ∃ t, runToCompletion .init s = .next t ∧ ReadyIn .absorb zeroLanes t := by
  refine ⟨finish (initEffect (start .init s)), ?_, ⟨rfl, rfl, rfl, rfl, rfl, rfl⟩⟩
  rw [runToCompletion, exec_init_starts hi]
  exact exec_init_completes (start_inflight .init s)

theorem runToCompletion_absorb {A : Lanes} {s : State} (h : ReadyIn .absorb A s) (b : Block) :
    ∃ t, runToCompletion .absorb (loadBlock b s) = .next t ∧ ReadyIn .absorb (absorbBlock A b) t := by
  obtain ⟨hi, herr, hcode, hop, hphase, rfl⟩ := h
  have hlegal : legal s.phase .absorb = true := by simp [legal, hphase]
  exact ⟨_, runToCompletion_of_accepted (s := loadBlock b s) hi herr hlegal rfl (by simp),
    ⟨rfl, herr, hcode, hop, hphase, rfl⟩⟩

theorem runToCompletion_absorbFinal {A : Lanes} {s : State} (h : ReadyIn .absorb A s) (b : Block) {len : Nat}
    (hlen : len ≤ 135) :
    ∃ t, runToCompletion (.absorbFinal len) (loadBlock b s) = .next t ∧
      ReadyIn .squeeze (absorbBlock A (pad b len)) t := by
  obtain ⟨hi, herr, hcode, hop, hphase, rfl⟩ := h
  have hlegal : legal s.phase (.absorbFinal len) = true := by simp [legal, hphase]
  exact ⟨_, runToCompletion_of_accepted (s := loadBlock b s) hi herr hlegal (by simp [inRange, hlen]) (by simp),
    ⟨rfl, herr, hcode, hop, rfl, rfl⟩⟩

theorem runToCompletion_squeeze {A : Lanes} {s : State} (h : ReadyIn .squeeze A s) {c : Nat} (hpos : 1 ≤ c)
    (hmax : c ≤ 136) :
    ∃ t, runToCompletion (.squeeze c) s = .next t ∧ ReadyIn .squeeze A t ∧ t.out = squeezeOut A c ∧
      t.outValid = true ∧ t.doneP = true := by
  obtain ⟨hi, herr, hcode, hop, hphase, rfl⟩ := h
  have hlegal : legal s.phase (.squeeze c) = true := by simp [legal, hphase]
  exact ⟨_, runToCompletion_of_accepted hi herr hlegal (by simp [inRange, hpos, hmax]) (by simp),
    ⟨rfl, herr, hcode, hop, hphase, rfl⟩, rfl, rfl, rfl⟩

theorem absorbCommands_succ (msg : List Byte) (n : Nat) (s : State) :
    absorbCommands msg (n + 1) s =
      andThen (absorbCommands msg n s) fun t =>
        runToCompletion .absorb (loadBlock (blockOfList (messageBlock msg n)) t) := by
  simp [absorbCommands, List.range_succ]

/-- R86, R88: each ABSORB of a message's full blocks finds the context open and absorbs its block. -/
theorem absorbCommands_absorb (msg : List Byte) (n : Nat) {A : Lanes} {s : State} (h : ReadyIn .absorb A s) :
    ∃ t, absorbCommands msg n s = .next t ∧ ReadyIn .absorb (absorbBlocks A msg n) t := by
  induction n with
  | zero => exact ⟨s, rfl, h⟩
  | succ n ih =>
    obtain ⟨t, ht, hready⟩ := ih
    rw [absorbCommands_succ, ht, absorbBlocks_succ]
    exact runToCompletion_absorb hready _

/-- R66, R88: the rest of a message after its full blocks, as the beginning of a block. -/
theorem getElem_blockOfList_messageTail (msg : List Byte) {p : Nat} (hp : p < 136) (hlt : p < msg.length % 136) :
    msg[136 * (msg.length / 136) + p]? = some (blockOfList (messageTail msg))[p] := by
  have hpos : 136 * (msg.length / 136) + p < msg.length := by omega
  simp [blockOfList, messageTail, hpos]

theorem length_messageTail (msg : List Byte) : (messageTail msg).length = msg.length % 136 := by
  rw [messageTail, List.length_drop]
  omega

/-- R88: the padded rest absorbed after the full blocks is the padded message absorbed. -/
theorem absorbMessage_eq (msg : List Byte) :
    absorbMessage msg = absorbBlock (absorbBlocks zeroLanes msg (msg.length / 136))
      (pad (blockOfList (messageTail msg)) (messageTail msg).length) := by
  rw [length_messageTail]
  exact Proofs.blockAbsorptionEqualsPaddedMessage zeroLanes msg _ fun p hp hlt =>
    getElem_blockOfList_messageTail msg hp hlt

/-- R89: what SQUEEZE leaves in OUT are the bytes that ReadRate lists, and zeroes after them. -/
theorem getElem_squeezeOut (A : Lanes) (c : Nat) {p : Nat} (hp : p < 136) :
    (squeezeOut A c)[p] = if p < c then (readRate A c).getD p 0 else 0 := by
  rw [squeezeOut_eq_ofFn, Vector.getElem_ofFn]
  split_ifs with hlt
  · rw [List.getD_eq_getElem?_getD, getElem?_readRate A hp hlt, Option.getD_some]
  · rfl

end Sys2Proof.Machine

namespace Sys2Proof.Proofs
open Sys2Proof.Machine

/-- Settles O27: a word's acceptance fails at the first of its checks in the order of the chain, and each check of the
decoded command is one of the word's fields. -/
theorem acceptanceIsThePriorityChain : Obligations.AcceptanceIsThePriorityChain := by
  refine ⟨fun s w rest hu hh => ⟨fun hi => step_presented hu hi hh, fun t hbusy hstep => ?held⟩,
    fun w s hi => ?chain⟩
  case held =>
    obtain ⟨-, ⟨hreset, -⟩ | ⟨-, -, fl, i, -, -, he⟩ | ⟨-, hdue, -⟩⟩ := step_next hstep
    · exact absurd (hu.2.symm.trans hreset) (by decide)
    · exact (exec_sameSurroundings he).host
    · obtain rfl := Host.Outcome.next.inj ((step_heldWrite ⟨hu, hdue⟩ hbusy hh).symm.trans hstep)
      rfl
  case chain =>
    change acceptWord w s = .next (if s.err = true ∧ opField w ≠ 0x0 ∧ opField w ≠ 0x1 then s else _)
    rw [if_congr locked_eq_true_iff.symm rfl rfl]
    cases hl : locked s (opField w) with
    | true => simp [acceptWord, hl]
    | false =>
      cases hc : commandOf (opField w) (faField w) (fbField w) with
      | none =>
        have hop : 7 ≤ (w.extractLsb' 0 4).toNat := commandOf_eq_none_iff.1 hc
        rw [acceptWord_records_of_not_locked (decode_of_no_command hc) hl, if_neg (by simp), if_pos hop]
        rfl
      | some i =>
        have hop : ¬ 7 ≤ (w.extractLsb' 0 4).toNat :=
          mt commandOf_eq_none_iff.2 (Option.ne_none_iff_exists'.2 ⟨i, hc⟩)
        rw [if_neg (by simp), if_neg hop]
        by_cases hz : unusedFieldsZero w
        · have hd := decode_of_unusedFieldsZero hc hz
          obtain ⟨hfa, hfb⟩ := operands_of_decode hd
          have hopcode := decode_opcode hd
          have hmatch : ¬ matchesNoRow w = true := mt (matchesNoRow_iff hc).1 (not_not_intro hz)
          rw [acceptWord_eq_acceptCommand hi hd, acceptCommand, hopcode, hl, if_neg hmatch, start_of_decode hd]
          simp only [legal_eq_false_iff, inRange_eq_false_iff, eq_nop_iff_opcode, hopcode, hfa, hfb]
          rfl
        · rw [acceptWord_records_of_not_locked (decode_of_not_unusedFieldsZero hc hz) hl,
            if_pos ((matchesNoRow_iff hc).2 hz)]
          rfl

/-- Settles O32: INIT has no operand and passes the lock, the phase and the range, and of the effects its own alone
writes ERR. -/
theorem initOpensAFreshContext : Obligations.InitOpensAFreshContext := by
  refine ⟨by decide, fun s hi => ?accepted, fun s snap hi => ?completed, fun s snap t hi h => ?status,
    fun w s _ hop hne => ?reserved, fun i s t h herr hclear => ?clears⟩
  case accepted => exact exec_init_starts hi
  case completed => exact exec_init_completes hi
  case status =>
    obtain rfl := Host.Outcome.next.inj ((exec_init_completes hi).symm.trans h)
    exact (statusWord_of_no_error (p := .absorb) (v := false) rfl rfl rfl rfl rfl rfl).trans (by decide)
  case reserved => exact acceptWord_records_reservedBits (i := .init) hop (fun _ _ => rfl) hne (locked_init s)
  case clears =>
    by_contra hinit
    simp [exec_err_of_err h herr hinit] at hclear

/-- Settles O50: INIT opens a fresh context, each of the next commands is accepted in it, and SQUEEZE reads the matrix
that the padded message leaves. -/
theorem hashCommandsComputeTheHash : Obligations.HashCommandsComputeTheHash := by
  intro msg s hi
  obtain ⟨s1, h1, hready1⟩ := runToCompletion_init hi
  obtain ⟨s2, h2, hready2⟩ := absorbCommands_absorb msg (msg.length / 136) hready1
  have hlen : (messageTail msg).length ≤ 135 := by
    rw [length_messageTail]
    omega
  obtain ⟨s3, h3, hready3⟩ := runToCompletion_absorbFinal hready2 (blockOfList (messageTail msg)) hlen
  rw [← absorbMessage_eq] at hready3
  obtain ⟨t, ht, hready, hout, hvalid, hdone⟩ := runToCompletion_squeeze hready3 (c := 32) (by decide) (by decide)
  refine ⟨t, ?run, hready.lanes, fun p hp => ?digest, ?status, hdone, hready.idle⟩
  case run => simp only [hashCommands, h1, andThen, h2, h3, ht]
  case digest =>
    simp only [hout]
    exact getElem_squeezeOut _ _ hp
  case status =>
    exact (statusWord_of_no_error hready.idle hready.no_error hready.no_code hready.no_op hready.phase hvalid).trans
      (by decide)

/-- Settles O53: the command in flight completes with a next state, and the bus has faults of its own. -/
theorem completionNeverStops : Obligations.CompletionNeverStops :=
  fun _ hinv => ⟨step_ne_noCommandInFlight hinv, step_completes_of_due hinv⟩

/-- Settles O8: the write is performed, and acceptance records the decoder's error where the lock lets it. -/
theorem stepRefusesAWordThatIsNoCommand : Obligations.StepRefusesAWordThatIsNoCommand := by
  intro s w e rest hu hi hh hd
  rw [step_presented hu hi hh, acceptWord_of_decode_error hd]
  exact congrArg _ (if_congr locked_eq_true_iff rfl rfl)

/-- Settles O9: a completion that is due comes before the host's step. -/
theorem stepCompletesTheCommandInFlight : Obligations.StepCompletesTheCommandInFlight := by
  intro s fl i hu hi hlat hd
  have hdue : completionDue s = true := (completionDue_iff s).2 ⟨by simp [hi], hlat⟩
  calc step s = complete (advance s) := step_of_completionDue hu hdue
    _ = exec i (advance s) := complete_eq (s := advance s) hi hd

/-- Settles O26: the table is the function's, and with no error the lock lets the command come to its phase's check. -/
theorem phaseLegalityTable : Obligations.PhaseLegalityTable := by
  refine ⟨fun p => ⟨rfl, rfl⟩, fun o c n => by simp [legal], fun w i s hi herr hd hphase => ?_⟩
  rw [acceptWord_of_decode hi hd, exec_badPhase hi herr hphase, decode_opcode hd]
  rfl

/-- Settles O31: NOP passes every check and has no effect, and its opcode is never locked. -/
theorem nopChangesNothing : Obligations.NopChangesNothing := by
  refine ⟨by decide, exec_nop, fun s hi => ?accepted, fun w s _ hop hne => ?reserved⟩
  case accepted => rw [acceptWord_of_decode hi (i := .nop) (by decide), exec_nop]
  case reserved => exact acceptWord_records_reservedBits (i := .nop) hop (fun _ _ => rfl) hne (locked_nop s)

end Sys2Proof.Proofs

/-! What raises ERR and ERR_P, and the words that the error lock lets pass (spec/60_exceptions.md R102, R103). -/

namespace Sys2Proof.Machine

/-! ## What raises ERR and ERR_P -/

/-- R34, R36: from `s` to `t` neither ERR nor ERR_P rises. -/
structure RaisesNoError (s t : State) : Prop where
  err : t.err = true → s.err = true
  errP : t.errP = true → s.errP = true

/-- R34, R36: no command's effect raises ERR or ERR_P. -/
theorem effectOf_raisesNoError (i : Instr) (b : Block) (s : State) : RaisesNoError s (effectOf i b s) where
  err h := by
    by_cases hinit : i = .init
    · subst hinit
      simp [effectOf, initEffect] at h
    · rwa [effectOf_err hinit] at h
  errP h := by rwa [effectOf_errP] at h

/-- R36, R102: a host step raises neither, unless it accepts a word that records an error. -/
theorem hostStep_raisesNoError_or_records {s t : State} (h : hostStep s = .next t) :
    RaisesNoError s t ∨
    ∃ w rest e, s.host = .write (s.base + 0x008) 4 w :: rest ∧ s.inflight = none ∧
      t = recordError e (opField w) (popHost s) := by
  obtain rfl | ⟨v, rfl⟩ | rfl | ⟨w, rfl⟩ | ⟨w, rfl⟩ | ⟨j, w, rfl⟩ | ⟨w, rest, hh, hi, ha⟩ := hostStep_next h
  case inr.inr.inr.inr.inl =>
    exact .inl ⟨id, fun hp => (Bool.and_eq_true_iff.1 hp).1⟩
  case inr.inr.inr.inr.inr.inr =>
    obtain rfl | ⟨e, -, rfl⟩ | ⟨i, -, -, -, -, -, rfl⟩ := acceptWord_next (s := popHost s) hi ha
    · exact .inl ⟨id, id⟩
    · exact .inr ⟨w, rest, e, hh, hi, rfl⟩
    · exact .inl ⟨id, id⟩
  all_goals exact .inl ⟨id, id⟩

/-- R102: a step raises neither ERR nor ERR_P, unless it accepts a word that records an error. -/
theorem step_raisesNoError_or_records {s t : State} (h : step s = .next t) :
    RaisesNoError s t ∨
    ∃ w rest e, s.host = .write (s.base + 0x008) 4 w :: rest ∧ s.inflight = none ∧
      t = recordError e (opField w) (popHost (advance s)) := by
  obtain ⟨-, ⟨-, rfl⟩ | ⟨-, -, fl, i, hi, hd, he⟩ | ⟨-, -, hh⟩⟩ := step_next h
  · exact .inl ⟨fun herr => by simp at herr, fun hp => by simp at hp⟩
  · obtain ⟨-, rfl⟩ | ⟨-, rfl⟩ := exec_completes (s := advance s) hi hd he
    · exact .inl ⟨id, id⟩
    · obtain ⟨herr, hp⟩ := effectOf_raisesNoError i fl.snap (advance s)
      exact .inl ⟨herr, hp⟩
  · obtain ⟨herr, hp⟩ | hrecords := hostStep_raisesNoError_or_records hh
    · exact .inl ⟨herr, hp⟩
    · exact .inr hrecords

/-! ## The words that the error lock lets pass -/

theorem acceptWord_nop {s : State} (hi : s.inflight = none) : acceptWord 0x00000000 s = .next s := by
  rw [acceptWord_of_decode hi (i := .nop) (by decide), exec_nop]

theorem acceptWord_init {s : State} (hi : s.inflight = none) : acceptWord 0x00000001 s = .next (start .init s) := by
  rw [acceptWord_of_decode hi (i := .init) (by decide), exec_init_starts hi]

end Sys2Proof.Machine

namespace Sys2Proof.Proofs
open Sys2Proof.Machine

/-- Settles O28: of all that a step can do, only an error recorded at acceptance raises ERR or ERR_P. -/
theorem recordErrorIsTheOnlyErrorAction : Obligations.RecordErrorIsTheOnlyErrorAction := by
  refine ⟨fun e op s herr => recordError_of_no_error herr e op, fun e op s herr => recordError_of_error herr e op,
    fun s t hstep hraised => ?_⟩
  obtain ⟨herr, hp⟩ | hrecords := step_raisesNoError_or_records hstep
  · obtain ⟨hs, ht⟩ | ⟨hs, ht⟩ := hraised
    · exact absurd (herr ht) (by simp [hs])
    · exact absurd (hp ht) (by simp [hs])
  · exact hrecords

/-- Settles O29: the lock discards every other opcode, and of the opcodes it lets pass only the words of NOP and INIT
are commands. -/
theorem errorLockDiscardsEveryOtherWord : Obligations.ErrorLockDiscardsEveryOtherWord := by
  refine fun w s hi herr => ⟨fun h0 h1 => acceptWord_discards herr h0 h1,
    fun hop => ⟨?nop, ?init, fun hnop hinit => ?reserved⟩⟩
  case nop =>
    rintro rfl
    exact acceptWord_nop hi
  case init =>
    rintro rfl
    exact ⟨_, acceptWord_init hi, rfl⟩
  case reserved =>
    obtain hop | hop := hop <;> rw [hop]
    · exact acceptWord_records_reservedBits (i := .nop) hop (fun _ _ => rfl) hnop (locked_nop s)
    · exact acceptWord_records_reservedBits (i := .init) hop (fun _ _ => rfl) hinit (locked_init s)

end Sys2Proof.Proofs

/-! Reset, from the reset state and at any moment, and the fields that hold while a command is in flight
(spec/60_exceptions.md R117, R118, R120). -/

namespace Sys2Proof.Machine

/-! ## Reset -/

@[simp] theorem getElem_zeroLanes {k : Nat} (hk : k < 25) : zeroLanes[k] = 0 := Vector.getElem_replicate hk

@[simp] theorem getElem_zeroBlock {p : Nat} (hp : p < 136) : zeroBlock[p] = 0 := Vector.getElem_replicate hp

/-- R117: every piece of the block's state has its reset value. -/
structure BlockAtReset (t : State) : Prop where
  sponge : SameSponge State.reset t
  buf : t.buf = zeroBlock
  doneIE : t.doneIE = false
  errIE : t.errIE = false
  doneP : t.doneP = false
  errP : t.errP = false
  inflight : t.inflight = none
  rnd : t.rnd = 0

theorem blockAtReset_reset : BlockAtReset State.reset :=
  ⟨⟨rfl, rfl, rfl, rfl, rfl, rfl, rfl⟩, rfl, rfl, rfl, rfl, rfl, rfl, rfl⟩

theorem blockAtReset_applyReset (s : State) : BlockAtReset (applyReset s) :=
  ⟨⟨rfl, rfl, rfl, rfl, rfl, rfl, rfl⟩, rfl, rfl, rfl, rfl, rfl, rfl, rfl⟩

/-- R117: STATUS reads 0 after a reset. -/
theorem BlockAtReset.statusWord_eq {t : State} (h : BlockAtReset t) : statusWord t = 0x00000000 := by
  obtain ⟨-, -, hvalid, hphase, herr, hcode, hop⟩ := h.sponge
  exact (statusWord_of_no_error h.inflight herr hcode hop hphase hvalid).trans (by decide)

theorem BlockAtReset.irq_eq {t : State} (h : BlockAtReset t) : irq t = false := by simp [irq, h.doneP, h.errP]

/-- R10: with one host, a reset that is due is taken before anything else. -/
theorem step_of_resetDue {s : State} (hsecond : s.secondHost = []) (hreset : resetDue s = true) :
    step s = .next (applyReset s) := by
  simp [step, hsecond, hreset]

theorem resetDue_of_cons {s : State} {b : Bool} {pins : List Bool} (h : s.resetPin = b :: pins) : resetDue s = b := by
  simp [resetDue, h]

/-- R10: after a reset the machine is undisturbed where the line asks for no second reset. -/
theorem undisturbed_applyReset {s : State} {b : Bool} {pins : List Bool} (hsecond : s.secondHost = [])
    (hpin : s.resetPin = b :: pins) (hnext : pins.headD false = false) : undisturbed (applyReset s) :=
  ⟨hsecond, by simpa [resetDue, hpin] using hnext⟩

/-! ## While a command is in flight -/

/-- R120: two states agree in everything a command leaves alone before its completion. -/
structure SameWhileBusy (s t : State) : Prop where
  sponge : SameSponge s t
  inflight : t.inflight = s.inflight
  latLeft : t.latLeft = s.latLeft

/-- R30: STATUS shows the phase, OUT_VALID, the error fields and BUSY. -/
theorem statusWord_congr {s t : State} (hs : SameSponge s t) (hi : t.inflight = s.inflight) :
    statusWord t = statusWord s := by
  simp only [statusWord, busy, hi, hs.phase, hs.outValid, hs.err, hs.errCode, hs.errOp]

/-- R55, R120: only the acceptance of a command word could change these fields, and that is held. -/
theorem hostStep_sameWhileBusy {s t : State} (h : hostStep s = .next t) (hbusy : s.inflight.isSome = true) :
    SameWhileBusy s t := by
  obtain rfl | ⟨v, rfl⟩ | rfl | ⟨w, rfl⟩ | ⟨w, rfl⟩ | ⟨j, w, rfl⟩ | ⟨w, rest, -, hidle, -⟩ := hostStep_next h
  case inr.inr.inr.inr.inr.inr => simp [hidle] at hbusy
  all_goals exact ⟨⟨rfl, rfl, rfl, rfl, rfl, rfl, rfl⟩, rfl, rfl⟩

/-- R120: before its completion, a step with a command in flight that is no reset is the host's. -/
theorem step_sameWhileBusy {s t : State} (h : step s = .next t) (hbusy : s.inflight.isSome = true)
    (hreset : resetDue s = false) (hlat : s.latLeft ≠ 0) : SameWhileBusy (advance s) t := by
  obtain ⟨-, ⟨hreset', -⟩ | ⟨-, hlat', -⟩ | ⟨-, -, hh⟩⟩ := step_next h
  · simp [hreset] at hreset'
  · exact absurd hlat' hlat
  · exact hostStep_sameWhileBusy hh hbusy

end Sys2Proof.Machine

namespace Sys2Proof.Proofs
open Sys2Proof.Machine

/-- Settles O14: the step after the reset accepts the write that was held, with no command in flight, no error and the
phase IDLE. -/
theorem resetAbandonsTheCommandAndKeepsTheHeldWrite :
    Obligations.ResetAbandonsTheCommandAndKeepsTheHeldWrite := by
  intro s w rest pins hsecond hpin hnext hhost
  have haccept : step (applyReset s) = acceptWord w (popHost (advance (applyReset s))) :=
    step_presented (undisturbed_applyReset hsecond hpin hnext) rfl hhost
  refine ⟨applyReset s, step_of_resetDue hsecond (resetDue_of_cons hpin), rfl, rfl, rfl, rfl, haccept, ?init, ?absorb⟩
  case init =>
    rintro rfl
    exact ⟨_, haccept.trans (acceptWord_init rfl), rfl⟩
  case absorb =>
    rintro rfl
    have hidle : (popHost (advance (applyReset s))).inflight = none := rfl
    have hillegal : legal (popHost (advance (applyReset s))).phase .absorb = false := rfl
    rw [haccept, acceptWord_of_decode hidle (i := .absorb) (by decide), exec_badPhase hidle rfl hillegal]
    exact ⟨_, rfl, rfl, rfl, rfl, rfl⟩

/-- Settles O59: the step is the host's, whose CMD writes are held, and of these fields only the latency passes. -/
theorem stateHoldsWhileACommandIsInFlight : Obligations.StateHoldsWhileACommandIsInFlight := by
  intro s t h hbusy hreset hlat
  obtain ⟨hsponge, hinflight, hlat'⟩ := step_sameWhileBusy h hbusy hreset hlat
  have hstatus : statusWord t = statusWord s := statusWord_congr (s := advance s) hsponge hinflight
  have hpassed : t.latLeft + 1 = s.latLeft := by
    rw [hlat', advance_latLeft]
    omega
  exact ⟨hsponge.lanes, hsponge.out, hsponge.outValid, hsponge.phase, hsponge.err, hsponge.errCode, hsponge.errOp,
    hinflight, hstatus, hpassed⟩

/-- Settles O13: the reset state and every state after a reset hold the reset values, and the reads follow from them. -/
theorem resetSetsEveryPieceOfState : Obligations.ResetSetsEveryPieceOfState := by
  intro t ht
  have h : BlockAtReset t := by
    obtain rfl | ⟨s, pins, hsecond, hpin, hstep⟩ := ht
    · exact blockAtReset_reset
    · obtain rfl := Host.Outcome.next.inj ((step_of_resetDue hsecond (resetDue_of_cons hpin)).symm.trans hstep)
      exact blockAtReset_applyReset s
  obtain ⟨hlanes, hout, hvalid, hphase, herr, hcode, hop⟩ := h.sponge
  have hlane : ∀ (i : Nat) (_ : i < 25), t.lanes[i] = 0 := by
    rw [hlanes]
    exact fun _ hi => getElem_zeroLanes hi
  have hbytes : ∀ (p : Nat) (_ : p < 136), t.buf[p] = 0 ∧ t.out[p] = 0 := by
    rw [h.buf, hout]
    exact fun _ hp => ⟨getElem_zeroBlock hp, getElem_zeroBlock hp⟩
  have hstatus : memRead t 0x00C 4 = .ok 0x00000000 := by rw [memRead_status, h.statusWord_eq]
  exact ⟨hlane, hbytes, hphase, hvalid, herr, hcode, hop, h.doneIE, h.errIE, h.doneP, h.errP, h.inflight, h.rnd,
    hstatus, h.irq_eq, memRead_id t, memRead_param t⟩

/-- Settles O51: the reset state agrees with a state after a reset in all that the invariant speaks of. -/
theorem invariantHoldsAtReset : Obligations.InvariantHoldsAtReset :=
  stateInv_of_sameSponge (stateInv_applyReset State.reset) ⟨rfl, rfl, rfl, rfl, rfl, rfl, rfl⟩ rfl rfl rfl

end Sys2Proof.Proofs
